-- ==== Sys2Proof/Word.lean ====
section
/-! DEFINITION. The word types of the block (spec/00_scope.md R4, R5): the nibble that crosses the bus at
one clock edge, the data byte and the 16-bit bus address. Every value is unsigned. -/

namespace Sys2Proof

/-- `NIBBLE_W` = 4: what is sampled or driven at one clock edge. Data line `i` is bit `i` (R24, D10). -/
abbrev Nibble := BitVec 4

/-- `DATA_W` = 8: a data byte (R4, R17). -/
abbrev Byte := BitVec 8

/-- `ADDR_W` = 16: a bus address (R4, R16). -/
abbrev Addr := BitVec 16

end Sys2Proof
end

