-- ==== Sys2Proof/Syntax.lean ====
section
/-! DEFINITION. The syntax: the names the spec gives to levels, states and cycle kinds, what the outside
agents can do (spec/00_scope.md R9), the packets an instruction is read from, and `Instr`, one constructor for
each of the 38 rows of spec/opcode_table.json (spec/30_encoding.md R69, R74). -/

namespace Sys2Proof

/-- The level of the frame-strobe line; `active` is the low level (R13, R24, D2). -/
inductive Strobe where
  | inactive
  | active
deriving DecidableEq, Repr, Inhabited

/-- The decoded cycle type; `reserved` stands for the code the source does not name (R14). -/
inductive CycleType where
  | io
  | memory
  | dma
  | reserved
deriving DecidableEq, Repr, Inhabited

/-- The direction of a cycle (R15). -/
inductive Direction where
  | read
  | write
deriving DecidableEq, Repr, Inhabited

/-- Who drives the four data lines: `host` (the block's lines are inputs) or `peripheral` (R19). -/
inductive LineDir where
  | host
  | peripheral
deriving DecidableEq, Repr, Inhabited

/-- The sixteen values of `cycle_state`, in the order of the source's list (R11, R74). -/
inductive CycleState where
  | idle
  | cycTypeAndDir
  | addr0
  | addr1
  | addr2
  | addr3
  | dataWrite0
  | dataWrite1
  | turnToPeripheral0
  | turnToPeripheral1
  | sync
  | dataRead0
  | dataRead1
  | turnToHost0
  | turnToHost1
  | abort
deriving DecidableEq, Repr, Inhabited

/-- The seven formats of the opcode table (R60, R68). -/
inductive Format where
  | event
  | state
  | frame
  | ctdir
  | iow
  | ior
  | app
deriving DecidableEq, Repr, Inhabited

/-- What an instruction is decoded from: a format, the nibbles of its word with the first in time first
(R68), then the operand nibbles to which the table gives no bits, and the argument of SUBMIT (R73). -/
structure Packet where
  format  : Format
  nibbles : List Nibble
  payload : List Byte
deriving DecidableEq, Repr

/-- Why a packet is no instruction. -/
inductive Reject where
  /-- The packet has not the number of nibbles of its format, or carries an argument its row does not take. -/
  | badShape (f : Format)
  /-- The word matches no row of its format (R69). -/
  | noRow (f : Format)
deriving DecidableEq, Repr

/-- One action of an outside agent (R9): the host presents one sample at a falling clock edge (R24), or the
application makes a call (R130, R132). -/
inductive Act where
  | sample (strobe : Strobe) (ladIn : Nibble)
  | peek
  | submit (payload : List Byte)
deriving DecidableEq, Repr, Inhabited

/-- The kinds of word that the host's nibbles of several edges are packed into (R68). -/
inductive CycleKind where
  | frame
  | ctdir
  | iow
  | ior
deriving DecidableEq, Repr, Inhabited

/-- The next thing that happens to the block: one action, or one frame or cycle of the host given whole, as
the lines of a host program are (R68, R72). -/
inductive Stimulus where
  | act (a : Act)
  | cycle (kind : CycleKind) (nibbles : List Nibble)
deriving DecidableEq, Repr, Inhabited

/-- The instructions: one constructor for each row of spec/opcode_table.json. In the EVENT and STATE rows the
operand is the nibble sampled at the edge; in the FRAME rows it is the nibble sampled at the RISE edge; `bit0`
is the ignored bit 0 of CTDIR (R64). -/
inductive Instr where
  -- EVENT rows: the frame events (R61, R82 to R85)
  | fall (nibble : Nibble)
  | hold (nibble : Nibble)
  | rise (nibble : Nibble)
  | run (nibble : Nibble)
  -- STATE rows: the actions of step 5 (R91 to R106)
  | stIdle (nibble : Nibble)
  | stCycTypeAndDir (nibble : Nibble)
  | stAddr0 (nibble : Nibble)
  | stAddr1 (nibble : Nibble)
  | stAddr2 (nibble : Nibble)
  | stAddr3 (nibble : Nibble)
  | stDataWrite0 (nibble : Nibble)
  | stDataWrite1 (nibble : Nibble)
  | stTurnToPeripheral0 (nibble : Nibble)
  | stTurnToPeripheral1 (nibble : Nibble)
  | stSync (nibble : Nibble)
  | stDataRead0 (nibble : Nibble)
  | stDataRead1 (nibble : Nibble)
  | stTurnToHost0 (nibble : Nibble)
  | stTurnToHost1 (nibble : Nibble)
  | stAbort (nibble : Nibble)
  -- APP rows: the application calls (R130 to R134)
  | peek
  | submit (payload : List Byte)
  -- FRAME rows: a frame and its RISE edge (R63, R84)
  | frameStart (nibble : Nibble)
  | frameAbort (nibble : Nibble)
  | frameOther (code nibble : Nibble)
  -- CTDIR rows: cycles dropped at t = 0 (R64, R91)
  | cycMem (dir : Direction) (bit0 : Bool)
  | cycDma (dir : Direction) (bit0 : Bool)
  | cycRsvd (dir : Direction) (bit0 : Bool)
  -- IOW rows: I/O write cycles (R112 to R116)
  | iowLength (bit0 : Bool) (v : Byte)
  | iowChecksum (bit0 : Bool) (v : Byte)
  | iowAck (bit0 : Bool) (v : Byte)
  | iowPayload (bit0 : Bool) (offset v : Byte)
  | iowNone (bit0 : Bool) (addr : Addr) (v : Byte)
  -- IOR rows: I/O read cycles (R122 to R126)
  | iorLength (bit0 : Bool)
  | iorChecksum (bit0 : Bool)
  | iorAck (bit0 : Bool)
  | iorPayload (bit0 : Bool) (offset : Byte)
  | iorNone (bit0 : Bool) (addr : Addr)
deriving DecidableEq, Repr

end Sys2Proof
end

