-- ==== Sys2Proof/Config.lean ====
section
/-! DEFINITION. What an implementation fixes (spec/00_scope.md R4): the wire codes as configuration fields with the
spec's defaults, the literals of the source as constants, and the values the spec leaves free, constants without a
body, of which nothing can be proved but that they have a type. -/

namespace Sys2Proof

/-- The parameters of R4 whose value on the wire no passage of the source gives: configuration fields, each with
the default the spec decides. UNVERIFIED: the spec takes the defaults from general knowledge (D4 to D7, D9, G1 to
G5; log 11). The block never writes them. -/
structure WireCodes where
  /-- `FRAME_START` (R63, D4). -/
  frameStart : Nibble := 0b0000#4
  /-- `FRAME_ABORT` (R63, D5). -/
  frameAbort : Nibble := 0b1111#4
  /-- `CYCTYPE_IO` (R64, D6). -/
  cycTypeIo : BitVec 2 := 0b00#2
  /-- `CYCTYPE_MEMORY` (R64, D6). -/
  cycTypeMemory : BitVec 2 := 0b01#2
  /-- `CYCTYPE_DMA` (R64, D6). -/
  cycTypeDma : BitVec 2 := 0b10#2
  /-- `CYCTYPE_RESERVED`, the fourth code (R64, D6). -/
  cycTypeReserved : BitVec 2 := 0b11#2
  /-- `DIR_WRITE`, the value of CTDIR bit 1 that means a write (R64, D7). -/
  dirWrite : Bool := true
  /-- `SYNC_READY` (R67, D9). -/
  syncReady : Nibble := 0b0000#4
  /-- `SYNC_SHORT_WAIT` (R67, D9). -/
  syncShortWait : Nibble := 0b0101#4
  /-- `SYNC_LONG_WAIT`, never driven (R67, R107, D9). -/
  syncLongWait : Nibble := 0b0110#4
  /-- `SYNC_ERROR`, never driven (R67, R107, D9). -/
  syncError : Nibble := 0b1010#4
deriving DecidableEq, Repr, Inhabited

/-- `DIR_READ`, the other value of the one bit (R64, D7). -/
def WireCodes.dirRead (codes : WireCodes) : Bool := !codes.dirWrite

/-- The codes tell apart what they name, as spec/92_eei_decisions.md asks of these parameters: the two frame codes
differ, the four cycle types have the four codes, and the four sync codes differ (R63, R64, R67). -/
def WireCodes.wf (codes : WireCodes) : Bool :=
  decide (codes.frameStart ≠ codes.frameAbort) &&
    decide ([codes.cycTypeIo, codes.cycTypeMemory, codes.cycTypeDma, codes.cycTypeReserved].Nodup) &&
    decide ([codes.syncReady, codes.syncShortWait, codes.syncLongWait, codes.syncError].Nodup)

end Sys2Proof

namespace Sys2Proof.Config

/-! ## Literals of the source (R4, D31) -/

/-- `RELEASE_PATTERN`, all ones (R103). -/
abbrev releasePattern : Nibble := 0b1111#4

/-- `BUF_SIZE` (R20). -/
abbrev bufSize : Nat := 256

/-- `BUF_LAST`, the last payload address (R41). -/
abbrev bufLast : Addr := 0x00FF#16

/-- `ADDR_LENGTH` (R41). -/
abbrev addrLength : Addr := 0x0100#16

/-- `ADDR_CHECKSUM` (R41). -/
abbrev addrChecksum : Addr := 0x0101#16

/-- `ADDR_ACK` (R41). -/
abbrev addrAck : Addr := 0x0102#16

/-- `ACK_PASS` (R23). -/
abbrev ackPass : Byte := 0xA0#8

/-- `ACK_FAIL` (R23). -/
abbrev ackFail : Byte := 0xAF#8

/-! ## What the model chose -/

/-- What a buffer byte that no cell lists reads as. DESIGN CHOICE, unsafe: the spec leaves `BUF_INIT` open
(R30, U6; log 9). -/
abbrev unlistedByte : Byte := 0x00#8

/-! ## Free values -/

/-- `SUBMIT_256`: what `Submit` does with 256 bytes (R134, D18). -/
inductive Submit256 where
  /-- The call returns `Failed`. -/
  | failed
  /-- The 256 bytes are copied and `length` becomes 0. -/
  | lengthZero
deriving DecidableEq, Repr, Inhabited

/-- The implementation's choice of `SUBMIT_256`, which the spec leaves open (R134, U9; log 7). -/
opaque submit256 : Submit256

/-- What the outside does at its `k`-th action that no list of stimuli gives: free input, under no law of the
spec (R25, spec/00_scope.md section 6; log 1). -/
opaque outside : Nat → Act

/-- The data lines at an edge of a whole cycle at which nothing consumes them, by the edge's place in the cycle
(R25, R72, R109; log 6). -/
opaque freeLadIn : Nat → Nibble

end Sys2Proof.Config
end

