-- ==== Sys2Proof/WellFormed.lean ====
section
/-! DEFINITION. Which terms of `Instr` stand for a row of the table: the catch-all rows take what the rows
before them do not (spec/30_encoding.md R69). -/

namespace Sys2Proof

/-- The addresses of the catch-all rows: neither a payload address nor a control register (R41, R69). -/
def unmapped (a : Addr) : Bool :=
  !(a ≤ Config.bufLast || a = Config.addrLength || a = Config.addrChecksum || a = Config.addrAck)

/-- Well-formedness: FRAME.OTHER carries one of the fourteen unrecognized codes (R63), IOW.NONE and IOR.NONE
an address of no other row (R69). Every other term is well formed. -/
def Instr.wf (codes : WireCodes) (i : Instr) : Bool :=
  match i with
  | .frameOther code _ => code ≠ codes.frameStart && code ≠ codes.frameAbort
  | .iowNone _ addr _ => unmapped addr
  | .iorNone _ addr => unmapped addr
  | _ => true

end Sys2Proof
end

