-- ==== Sys2Proof/Decode.lean ====
section
/-! DEFINITION. The bit fields of samples and cycle words, the decoder from packets to instructions, and the
encoder (spec/30_encoding.md R61 to R69, R73, R74). -/

namespace Sys2Proof

/-! ## Bit fields -/

/-- `v[3:0]`. -/
def lowNibble (v : Byte) : Nibble := v.extractLsb' 0 4

/-- `v[7:4]`. -/
def highNibble (v : Byte) : Nibble := v.extractLsb' 4 4

/-- `hi ++ lo`: the byte with these two nibbles. -/
def joinNibbles (hi lo : Nibble) : Byte := hi ++ lo

/-- `n1 ++ n2 ++ n3 ++ n4`: the address with these nibbles, most significant first (R43, R65). -/
def joinAddr (n1 n2 n3 n4 : Nibble) : Addr := (n1 ++ n2 : BitVec 8) ++ (n3 ++ n4 : BitVec 8)

/-- The address nibbles in the order they cross the bus, most significant first (R43). -/
def addrNibbles (a : Addr) : List Nibble :=
  [a.extractLsb' 12 4, a.extractLsb' 8 4, a.extractLsb' 4 4, a.extractLsb' 0 4]

/-- The payload address of a buffer offset (R41). -/
def payloadAddr (offset : Byte) : Addr := offset.setWidth 16

/-! ## The CTDIR nibble (R64) -/

/-- Bits 3:2, the cycle type. -/
def ctdirType (codes : WireCodes) (n : Nibble) : CycleType :=
  let code : BitVec 2 := n.extractLsb' 2 2
  if code = codes.cycTypeIo then .io
  else if code = codes.cycTypeMemory then .memory
  else if code = codes.cycTypeDma then .dma
  else .reserved

/-- Bit 1, the direction. -/
def ctdirDirection (codes : WireCodes) (n : Nibble) : Direction :=
  if n.getLsbD 1 = codes.dirWrite then .write else .read

/-- Bit 0, ignored by the block. -/
def ctdirBit0 (n : Nibble) : Bool := n.getLsbD 0

/-- The two-bit code of a cycle type. -/
def typeCode (codes : WireCodes) (t : CycleType) : BitVec 2 :=
  match t with
  | .io => codes.cycTypeIo
  | .memory => codes.cycTypeMemory
  | .dma => codes.cycTypeDma
  | .reserved => codes.cycTypeReserved

/-- The direction bit. -/
def dirBit (codes : WireCodes) (d : Direction) : Bool :=
  match d with
  | .read => codes.dirRead
  | .write => codes.dirWrite

/-- The CTDIR nibble with these fields. -/
def ctdirNibble (codes : WireCodes) (t : CycleType) (d : Direction) (bit0 : Bool) : Nibble :=
  typeCode codes t ++ (BitVec.ofBool (dirBit codes d) ++ BitVec.ofBool bit0 : BitVec 2)

/-! ## Keys of the EVENT and STATE rows (R61, R74) -/

/-- One bit of an event key: `active` is written 1. -/
def strobeBit (s : Strobe) : Bool :=
  match s with
  | .inactive => false
  | .active => true

/-- The key of the EVENT rows, `strobe_prev ++ strobe`, in the low bits of a nibble. -/
def eventKey (prev now : Strobe) : Nibble :=
  (0#2 : BitVec 2) ++ (BitVec.ofBool (strobeBit prev) ++ BitVec.ofBool (strobeBit now) : BitVec 2)

/-- The key of the STATE rows, the ordinal of `cycle_state`. -/
def CycleState.ordinal (c : CycleState) : Nibble :=
  match c with
  | .idle => 0#4
  | .cycTypeAndDir => 1#4
  | .addr0 => 2#4
  | .addr1 => 3#4
  | .addr2 => 4#4
  | .addr3 => 5#4
  | .dataWrite0 => 6#4
  | .dataWrite1 => 7#4
  | .turnToPeripheral0 => 8#4
  | .turnToPeripheral1 => 9#4
  | .sync => 10#4
  | .dataRead0 => 11#4
  | .dataRead1 => 12#4
  | .turnToHost0 => 13#4
  | .turnToHost1 => 14#4
  | .abort => 15#4

/-- The state with a given ordinal. -/
def CycleState.ofOrdinal (k : Nibble) : CycleState :=
  match k.toNat with
  | 0 => .idle
  | 1 => .cycTypeAndDir
  | 2 => .addr0
  | 3 => .addr1
  | 4 => .addr2
  | 5 => .addr3
  | 6 => .dataWrite0
  | 7 => .dataWrite1
  | 8 => .turnToPeripheral0
  | 9 => .turnToPeripheral1
  | 10 => .sync
  | 11 => .dataRead0
  | 12 => .dataRead1
  | 13 => .turnToHost0
  | 14 => .turnToHost1
  | _ => .abort

/-! ## The rows of each format, in the order of their priority (R69) -/

/-- The STATE row of a value of `cycle_state`. -/
def Instr.ofState (c : CycleState) (n : Nibble) : Instr :=
  match c with
  | .idle => .stIdle n
  | .cycTypeAndDir => .stCycTypeAndDir n
  | .addr0 => .stAddr0 n
  | .addr1 => .stAddr1 n
  | .addr2 => .stAddr2 n
  | .addr3 => .stAddr3 n
  | .dataWrite0 => .stDataWrite0 n
  | .dataWrite1 => .stDataWrite1 n
  | .turnToPeripheral0 => .stTurnToPeripheral0 n
  | .turnToPeripheral1 => .stTurnToPeripheral1 n
  | .sync => .stSync n
  | .dataRead0 => .stDataRead0 n
  | .dataRead1 => .stDataRead1 n
  | .turnToHost0 => .stTurnToHost0 n
  | .turnToHost1 => .stTurnToHost1 n
  | .abort => .stAbort n

/-- The EVENT row of a pair of strobe levels (R61). -/
def Instr.ofEvent (prev now : Strobe) (n : Nibble) : Instr :=
  match prev, now with
  | .inactive, .active => .fall n
  | .active, .active => .hold n
  | .active, .inactive => .rise n
  | .inactive, .inactive => .run n

/-- The IOW row of an address: `IOW addr, v` (R69, R72). -/
def Instr.iow (bit0 : Bool) (a : Addr) (v : Byte) : Instr :=
  if a = Config.addrLength then .iowLength bit0 v
  else if a = Config.addrChecksum then .iowChecksum bit0 v
  else if a = Config.addrAck then .iowAck bit0 v
  else if a ≤ Config.bufLast then .iowPayload bit0 (a.setWidth 8) v
  else .iowNone bit0 a v

/-- The IOR row of an address: `IOR addr` (R69, R72). -/
def Instr.ior (bit0 : Bool) (a : Addr) : Instr :=
  if a = Config.addrLength then .iorLength bit0
  else if a = Config.addrChecksum then .iorChecksum bit0
  else if a = Config.addrAck then .iorAck bit0
  else if a ≤ Config.bufLast then .iorPayload bit0 (a.setWidth 8)
  else .iorNone bit0 a

/-- EVENT rows (R61, R74). -/
def decodeEvent (key n : Nibble) : Except Reject Instr :=
  match key.toNat with
  | 0 => .ok (.run n)
  | 1 => .ok (.fall n)
  | 2 => .ok (.rise n)
  | 3 => .ok (.hold n)
  | _ => .error (.noRow .event)

/-- FRAME rows (R63, R69). -/
def decodeFrame (codes : WireCodes) (code n : Nibble) : Instr :=
  if code = codes.frameStart then .frameStart n
  else if code = codes.frameAbort then .frameAbort n
  else .frameOther code n

/-- CTDIR rows: a start frame and a cycle type that is not IO (R64, R69). -/
def decodeCtdir (codes : WireCodes) (code c : Nibble) : Except Reject Instr :=
  if code = codes.frameStart then
    match ctdirType codes c with
    | .io => .error (.noRow .ctdir)
    | .memory => .ok (.cycMem (ctdirDirection codes c) (ctdirBit0 c))
    | .dma => .ok (.cycDma (ctdirDirection codes c) (ctdirBit0 c))
    | .reserved => .ok (.cycRsvd (ctdirDirection codes c) (ctdirBit0 c))
  else .error (.noRow .ctdir)

/-- IOW rows: a start frame and an I/O write (R68, R69); the data nibbles come low first (R66). -/
def decodeIow (codes : WireCodes) (code c : Nibble) (a : Addr) (lo hi : Nibble) : Except Reject Instr :=
  if code = codes.frameStart ∧ ctdirType codes c = .io ∧ ctdirDirection codes c = .write then
    .ok (Instr.iow (ctdirBit0 c) a (joinNibbles hi lo))
  else .error (.noRow .iow)

/-- IOR rows: a start frame and an I/O read (R68, R69). -/
def decodeIor (codes : WireCodes) (code c : Nibble) (a : Addr) : Except Reject Instr :=
  if code = codes.frameStart ∧ ctdirType codes c = .io ∧ ctdirDirection codes c = .read then
    .ok (Instr.ior (ctdirBit0 c) a)
  else .error (.noRow .ior)

/-- APP rows: selector 0 is PEEK, selector 1 is SUBMIT with its payload (R73). -/
def decodeApp (selector : Nibble) (payload : List Byte) : Except Reject Instr :=
  match selector.toNat, payload with
  | 0, [] => .ok .peek
  | 0, _ :: _ => .error (.badShape .app)
  | 1, bytes => .ok (.submit bytes)
  | _, _ => .error (.noRow .app)

/-- The decoder: total, and it rejects by name (R60, R69). -/
def decode (codes : WireCodes) (p : Packet) : Except Reject Instr :=
  match p.format, p.nibbles, p.payload with
  | .event, [key, n], [] => decodeEvent key n
  | .state, [key, n], [] => .ok (Instr.ofState (CycleState.ofOrdinal key) n)
  | .frame, [code, n], [] => .ok (decodeFrame codes code n)
  | .ctdir, [code, c], [] => decodeCtdir codes code c
  | .iow, [code, c, n1, n2, n3, n4, lo, hi], [] => decodeIow codes code c (joinAddr n1 n2 n3 n4) lo hi
  | .ior, [code, c, n1, n2, n3, n4], [] => decodeIor codes code c (joinAddr n1 n2 n3 n4)
  | .app, [selector], payload => decodeApp selector payload
  | f, _, _ => .error (.badShape f)

/-! ## The encoder -/

/-- The word of an I/O write of any address (R68). -/
def encodeIow (codes : WireCodes) (bit0 : Bool) (a : Addr) (v : Byte) : Packet :=
  ⟨.iow, codes.frameStart :: ctdirNibble codes .io .write bit0 :: addrNibbles a ++ [lowNibble v, highNibble v], []⟩

/-- The word of an I/O read of any address (R68). -/
def encodeIor (codes : WireCodes) (bit0 : Bool) (a : Addr) : Packet :=
  ⟨.ior, codes.frameStart :: ctdirNibble codes .io .read bit0 :: addrNibbles a, []⟩

/-- The packet of an EVENT row (R61). -/
def encodeEvent (prev now : Strobe) (n : Nibble) : Packet := ⟨.event, [eventKey prev now, n], []⟩

/-- The packet of a STATE row (R74). -/
def encodeState (c : CycleState) (n : Nibble) : Packet := ⟨.state, [c.ordinal, n], []⟩

/-- The packet of a dropped cycle (R64). -/
def encodeCtdir (codes : WireCodes) (t : CycleType) (d : Direction) (bit0 : Bool) : Packet :=
  ⟨.ctdir, [codes.frameStart, ctdirNibble codes t d bit0], []⟩

/-- The encoder, from the formats of R61, R63, R64, R68, R73 and R74. -/
def encode (codes : WireCodes) (i : Instr) : Packet :=
  match i with
  | .fall n => encodeEvent .inactive .active n
  | .hold n => encodeEvent .active .active n
  | .rise n => encodeEvent .active .inactive n
  | .run n => encodeEvent .inactive .inactive n
  | .stIdle n => encodeState .idle n
  | .stCycTypeAndDir n => encodeState .cycTypeAndDir n
  | .stAddr0 n => encodeState .addr0 n
  | .stAddr1 n => encodeState .addr1 n
  | .stAddr2 n => encodeState .addr2 n
  | .stAddr3 n => encodeState .addr3 n
  | .stDataWrite0 n => encodeState .dataWrite0 n
  | .stDataWrite1 n => encodeState .dataWrite1 n
  | .stTurnToPeripheral0 n => encodeState .turnToPeripheral0 n
  | .stTurnToPeripheral1 n => encodeState .turnToPeripheral1 n
  | .stSync n => encodeState .sync n
  | .stDataRead0 n => encodeState .dataRead0 n
  | .stDataRead1 n => encodeState .dataRead1 n
  | .stTurnToHost0 n => encodeState .turnToHost0 n
  | .stTurnToHost1 n => encodeState .turnToHost1 n
  | .stAbort n => encodeState .abort n
  | .peek => ⟨.app, [0#4], []⟩
  | .submit payload => ⟨.app, [1#4], payload⟩
  | .frameStart n => ⟨.frame, [codes.frameStart, n], []⟩
  | .frameAbort n => ⟨.frame, [codes.frameAbort, n], []⟩
  | .frameOther code n => ⟨.frame, [code, n], []⟩
  | .cycMem d bit0 => encodeCtdir codes .memory d bit0
  | .cycDma d bit0 => encodeCtdir codes .dma d bit0
  | .cycRsvd d bit0 => encodeCtdir codes .reserved d bit0
  | .iowLength bit0 v => encodeIow codes bit0 Config.addrLength v
  | .iowChecksum bit0 v => encodeIow codes bit0 Config.addrChecksum v
  | .iowAck bit0 v => encodeIow codes bit0 Config.addrAck v
  | .iowPayload bit0 offset v => encodeIow codes bit0 (payloadAddr offset) v
  | .iowNone bit0 addr v => encodeIow codes bit0 addr v
  | .iorLength bit0 => encodeIor codes bit0 Config.addrLength
  | .iorChecksum bit0 => encodeIor codes bit0 Config.addrChecksum
  | .iorAck bit0 => encodeIor codes bit0 Config.addrAck
  | .iorPayload bit0 offset => encodeIor codes bit0 (payloadAddr offset)
  | .iorNone bit0 addr => encodeIor codes bit0 addr

/-! ## Words as spec/opcode_table.json numbers them -/

/-- How many bits the table gives a row of a format (R68, R73, R74). -/
def Format.width (f : Format) : Nat :=
  match f with
  | .event => 2
  | .state => 4
  | .frame => 4
  | .ctdir => 8
  | .iow => 32
  | .ior => 24
  | .app => 1

/-- The format of a table word of `nbits` bits. Five formats have words of at most one byte, and nothing in the
word tells them apart; one byte is read as a STATE word. DESIGN CHOICE, safe (log 3). -/
def tableFormat (nbits : Nat) : Option Format :=
  match nbits with
  | 1 => some .app
  | 2 => some .event
  | 4 => some .state
  | 8 => some .state
  | 24 => some .ior
  | 32 => some .iow
  | _ => none

/-- Nibble `k` of a word, nibble 0 the least significant. -/
def wordNibble (w k : Nat) : Nibble := BitVec.ofNat 4 (w / 16 ^ k)

/-- The nibbles of a table word, the first in time in the most significant position (R68), the operand nibbles
above the table's bits zero. -/
def tableNibbles (f : Format) (w : Nat) : List Nibble :=
  match f with
  | .event => [wordNibble w 0, 0#4]
  | .state => [wordNibble w 0, 0#4]
  | .frame => [wordNibble w 0, 0#4]
  | .ctdir => [1, 0].map (wordNibble w)
  | .iow => [7, 6, 5, 4, 3, 2, 1, 0].map (wordNibble w)
  | .ior => [5, 4, 3, 2, 1, 0].map (wordNibble w)
  | .app => [wordNibble w 0]

/-- The instruction the decoder reads from a table word of a known format. -/
def decodeWord (codes : WireCodes) (f : Format) (w : Nat) : Option Instr :=
  if w < 2 ^ f.width then (decode codes ⟨f, tableNibbles f w, []⟩).toOption else none

/-- The instruction the decoder reads from a table word of `nbits` bits. The table's words are written with the
default codes. -/
def decodeTableWord (nbits w : Nat) : Option Instr :=
  match tableFormat nbits with
  | some f => decodeWord {} f w
  | none => none

end Sys2Proof
end

