-- ==== Sys2Proof/Machine/State.lean ====
section
/-! DEFINITION. The state of the machine: the fourteen registers that spec/10_state.md R10 names, the
configuration that spec/00_scope.md R4 asks for, and the model's own fields, which say what the outside does next and
what it was last told. -/

namespace Sys2Proof.Machine

/-- The message buffer's contents: the bytes that differ from what an unlisted offset reads as, by offset,
offsets strictly rising (R20; log 9). -/
abbrev Memory := List Host.Cell

/-- What the last application call returned (R130 to R134). -/
inductive AppReply where
  /-- No call has been made since initialisation. -/
  | noCall
  /-- `Peek` while the transport owns the buffer (R131). -/
  | notAvailable
  /-- `Peek` while the application owns the buffer: a copy of all 256 bytes, and `length` (R130). -/
  | available (buf : Memory) (n : Byte)
  /-- `Submit` accepted (R132). -/
  | ok
  /-- `Submit` not accepted (R133, R134). -/
  | failed
deriving DecidableEq, Repr, Inhabited

/-- What the four data lines show (R26). -/
inductive LadPins where
  /-- The block does not drive. -/
  | released
  /-- The block drives this nibble. -/
  | driven (n : Nibble)
deriving DecidableEq, Repr, Inhabited

/-- Faults: there are none, "Nothing in this core raises a hard fault" (R8, R140; log 19). Safe or unsafe does
not arise. -/
inductive Fault where
deriving DecidableEq, Repr

/-- Why a step has no meaning. -/
inductive Refusal where
  /-- Raised by `exec` for an instruction without a meaning; no arm answers it now. Safe: nothing follows. -/
  | notModelled (mnemonic : String)
  /-- Raised by `step` for a packet that matches no row of the opcode table (R69; log 21). Safe: no next state
  is claimed, and the same edges can be given one by one. -/
  | noInstruction (why : Reject)
deriving DecidableEq, Repr

/-- The state. -/
structure State where
  /-- R11, the sequencer. -/
  cycleState : CycleState
  /-- R12, the last latched frame code. -/
  frameInfo : Nibble
  /-- R13, the strobe level at the previous edge. -/
  strobePrev : Strobe
  /-- R14. -/
  cycType : CycleType
  /-- R15. -/
  direction : Direction
  /-- R16. -/
  address : Addr
  /-- R17. -/
  data : Byte
  /-- R18, the output latch. -/
  ladOut : Nibble
  /-- R19, the direction of the data lines. -/
  ladDir : LineDir
  /-- R20, the message buffer. -/
  buf : Memory
  /-- R21, bus address 0x0100. -/
  length : Byte
  /-- R22, bus address 0x0101. -/
  checksumAcc : Byte
  /-- R23, bus address 0x0102. -/
  ack : Byte
  /-- R27, true while the application owns the buffer. -/
  owner : Bool
  /-- The model's own: what the outside does next, oldest first (log 1). -/
  pending : List Stimulus
  /-- The model's own: how many free actions of the outside have been taken (log 1). -/
  drawn : Nat
  /-- The model's own: what the last application call returned (R26; log 14). -/
  reply : AppReply
  /-- The model's own: the byte the last I/O read cycle yielded to the host (R72; log 14). -/
  hostRead : Option Byte
  /-- The model's own: the host is in the middle of a line `IOR` whose cycle has not come to `Idle` (R72; log 5). -/
  readOpen : Bool
  /-- The configuration: the wire codes (spec/00_scope.md R4). No rule writes it (log 11). -/
  codes : WireCodes
deriving DecidableEq, Repr

/-- What initialisation leaves open (R30, R161, R172): one value for each register the spec does not fix,
`BUF_INIT`, and the configuration of R4. The values named here are those of `State.reset`. DESIGN CHOICE, unsafe
(log 8, log 9, log 10). -/
structure Launch where
  strobePrev : Strobe := .inactive
  frameInfo : Nibble := 0#4
  cycType : CycleType := .io
  direction : Direction := .read
  address : Addr := 0#16
  data : Byte := 0#8
  ladOut : Nibble := 0#4
  buf : Memory := []
  codes : WireCodes := {}
deriving DecidableEq, Repr

/-- Initialisation (R161): the state before the first edge, for a launch. -/
def State.initial (l : Launch) : State where
  cycleState := .idle
  frameInfo := l.frameInfo
  strobePrev := l.strobePrev
  cycType := l.cycType
  direction := l.direction
  address := l.address
  data := l.data
  ladOut := l.ladOut
  ladDir := .host
  buf := l.buf
  length := 0x00#8
  checksumAcc := 0x00#8
  ack := Config.ackFail
  owner := false
  pending := []
  drawn := 0
  reply := .noCall
  hostRead := none
  readOpen := false
  codes := l.codes

/-- The machine right after initialisation (R161), the block's only reset (R160). -/
def State.reset : State := State.initial {}

end Sys2Proof.Machine
end

