-- ==== Sys2Proof/Machine/Ops.lean ====
section
/-! DEFINITION. The named operations over the registers and the buffer: one update for each register, the
buffer's byte read and write, what the data lines show, and the block's one trap-like event. -/

namespace Sys2Proof.Machine

/-! ## Register writes (spec/00_scope.md R6) -/

/-- `cycle_state <- c`. -/
def State.goto (s : State) (c : CycleState) : State := { s with cycleState := c }

/-- `frame_info <- n`. -/
def State.setFrameInfo (s : State) (n : Nibble) : State := { s with frameInfo := n }

/-- `strobe_prev <- p`. -/
def State.setStrobePrev (s : State) (p : Strobe) : State := { s with strobePrev := p }

/-- `cyc_type <- t`. -/
def State.setCycType (s : State) (t : CycleType) : State := { s with cycType := t }

/-- `direction <- d`. -/
def State.setDirection (s : State) (d : Direction) : State := { s with direction := d }

/-- `address <- a`. -/
def State.setAddress (s : State) (a : Addr) : State := { s with address := a }

/-- `data <- b`. -/
def State.setData (s : State) (b : Byte) : State := { s with data := b }

/-- `lad_out <- n`. -/
def State.setLadOut (s : State) (n : Nibble) : State := { s with ladOut := n }

/-- `lad_dir <- d`. -/
def State.setLadDir (s : State) (d : LineDir) : State := { s with ladDir := d }

/-- the buffer becomes `m`. -/
def State.setBuf (s : State) (m : Memory) : State := { s with buf := m }

/-- `length <- b`. -/
def State.setLength (s : State) (b : Byte) : State := { s with length := b }

/-- `checksum_acc <- b`. -/
def State.setChecksumAcc (s : State) (b : Byte) : State := { s with checksumAcc := b }

/-- `ack <- b`. -/
def State.setAck (s : State) (b : Byte) : State := { s with ack := b }

/-- `owner <- o`. -/
def State.setOwner (s : State) (o : Bool) : State := { s with owner := o }

/-- the listed stimuli become `l`. -/
def State.setPending (s : State) (l : List Stimulus) : State := { s with pending := l }

/-- the count of free actions becomes `k`. -/
def State.setDrawn (s : State) (k : Nat) : State := { s with drawn := k }

/-- the application is told `r`. -/
def State.setReply (s : State) (r : AppReply) : State := { s with reply := r }

/-- the host is told `o`. -/
def State.setHostRead (s : State) (o : Option Byte) : State := { s with hostRead := o }

/-- the host's line `IOR` is open, or not. -/
def State.setReadOpen (s : State) (b : Bool) : State := { s with readOpen := b }

/-! ## The buffer (spec/10_state.md R20) -/

/-- The byte at an offset. -/
def Memory.get (m : Memory) (a : Nat) : Byte :=
  match m with
  | [] => Config.unlistedByte
  | (k, v) :: rest => if k = a then v else Memory.get rest a

/-- The buffer with one byte written; the canonical form is kept. -/
def Memory.put (m : Memory) (a : Nat) (b : Byte) : Memory :=
  match m with
  | [] => if b = Config.unlistedByte then [] else [(a, b)]
  | (k, v) :: rest =>
    if a < k then
      if b = Config.unlistedByte then (k, v) :: rest else (a, b) :: (k, v) :: rest
    else if a = k then
      if b = Config.unlistedByte then rest else (a, b) :: rest
    else (k, v) :: Memory.put rest a b

/-- The buffer with bytes written from an offset on, the first at the lowest offset (R132). -/
def Memory.putBytes (m : Memory) (a : Nat) (bytes : List Byte) : Memory :=
  match bytes with
  | [] => m
  | b :: rest => Memory.putBytes (Memory.put m a b) (a + 1) rest

/-- Canonical from an offset on: offsets strictly rising, below 256, no byte an unlisted offset reads as. -/
def Memory.wfFrom (lo : Nat) (m : Memory) : Bool :=
  match m with
  | [] => true
  | (k, v) :: rest =>
    decide (lo ≤ k) && decide (k < Config.bufSize) && decide (v ≠ Config.unlistedByte) &&
      Memory.wfFrom (k + 1) rest

/-- The canonical form of the buffer. -/
def Memory.wf (m : Memory) : Bool := Memory.wfFrom 0 m

/-- All 256 bytes, by offset (R130). -/
def Memory.bytes (m : Memory) : List Byte := (List.range Config.bufSize).map (Memory.get m)

/-- The message of an available reply: the first `n` bytes (R130, D20). -/
def AppReply.message (r : AppReply) : Option (List Byte) :=
  match r with
  | .available m n => some (m.bytes.take n.toNat)
  | _ => none

/-! ## The data lines -/

/-- `lad_pins` (R26): the output latch shows only while the lines are outputs. The latch holds its value while
they are inputs: UNVERIFIED (D11, G8; log 12). -/
def State.ladPins (s : State) : LadPins :=
  match s.ladDir with
  | .host => .released
  | .peripheral => .driven s.ladOut

/-- What the host has read once the DataRead1 edge is over (R72): the nibbles the lines showed after the DataRead0 and
the DataRead1 edge, low first; nothing new where the lines showed nothing (log 14). -/
def hostSees (afterData0 afterData1 : LadPins) (old : Option Byte) : Option Byte :=
  match afterData0, afterData1 with
  | .driven lo, .driven hi => some (joinNibbles hi lo)
  | _, _ => old

/-! ## The trap-like event -/

/-- The frame-strobe reset (R82, R148), the block's analogue of taking an exception: control goes to `Idle`
and the block stops driving, whatever it was doing. It saves nothing (no saved state, no cause, no vector), so
there is no return from it (R149) and no operation for one. -/
def frameReset (s : State) : State := (s.goto .idle).setLadDir .host

end Sys2Proof.Machine
end

