-- ==== Sys2Proof/Machine/Operands.lean ====
section
/-! DEFINITION. The operand forms: the address and data operands assembled nibble by nibble, the CTDIR fields,
the target of a frame code, and the samples by which the host presents a frame or a whole cycle
(spec/30_encoding.md R62 to R66). -/

namespace Sys2Proof.Machine

/-! ## Operands assembled at the edges -/

/-- Address assembly (R55, R92): a 4-bit left shift within 16 bits, and the nibble. -/
def shiftIn (a : Addr) (n : Nibble) : Addr := (a <<< 4) ||| n.setWidth 16

/-- `data[3:0] <- n` (R96). -/
def withLowNibble (b : Byte) (n : Nibble) : Byte := joinNibbles (highNibble b) n

/-- `data[7:4] <- n` (R97). -/
def withHighNibble (b : Byte) (n : Nibble) : Byte := joinNibbles n (lowNibble b)

/-- The buffer offset of a payload address, `addr[7:0]` (R115, R125). -/
def payloadOffset (a : Addr) : Nat := (a.setWidth 8 : Byte).toNat

/-- The target of a frame code at the RISE edge (R63, R84). -/
def frameTarget (codes : WireCodes) (code : Nibble) : CycleState :=
  if code = codes.frameStart then .cycTypeAndDir
  else if code = codes.frameAbort then .abort
  else .idle

/-- The state after the CTDIR nibble (R91). -/
def ctdirTarget (t : CycleType) : CycleState :=
  match t with
  | .io => .addr0
  | .memory => .idle
  | .dma => .idle
  | .reserved => .idle

/-- The state after the last address nibble (R95). -/
def addrTarget (d : Direction) : CycleState :=
  match d with
  | .read => .turnToPeripheral0
  | .write => .dataWrite0

/-! ## The host's samples -/

/-- The two inputs of one edge (R24). -/
structure Sample where
  strobe : Strobe
  ladIn : Nibble
deriving DecidableEq, Repr

/-- An edge with the strobe inactive that carries a nibble of the cycle. -/
def dataEdge (n : Nibble) : Sample := ⟨.inactive, n⟩

/-- The edge at place `k` of a cycle with the strobe inactive and the lines free (R72; log 6). -/
def freeEdge (k : Nat) : Sample := ⟨.inactive, Config.freeLadIn k⟩

/-- A frame of two active edges, the code on the second, and the RISE edge with the nibble it carries (R72). -/
def frameEdges (code n : Nibble) : List Sample :=
  [⟨.active, Config.freeLadIn 0⟩, ⟨.active, code⟩, dataEdge n]

/-- The fourteen edges of `IOW addr, v` (R62, R72). -/
def writeEdges (codes : WireCodes) (bit0 : Bool) (a : Addr) (v : Byte) : List Sample :=
  frameEdges codes.frameStart (ctdirNibble codes .io .write bit0) ++
    ((addrNibbles a ++ [lowNibble v, highNibble v]).map dataEdge ++ [9, 10, 11, 12, 13].map freeEdge)

/-- The fourteen edges of `IOR addr` when no read fails; the edges after a wait are the step's (R62, R72; log 5). -/
def readEdges (codes : WireCodes) (bit0 : Bool) (a : Addr) : List Sample :=
  frameEdges codes.frameStart (ctdirNibble codes .io .read bit0) ++
    ((addrNibbles a).map dataEdge ++ [7, 8, 9, 10, 11, 12, 13].map freeEdge)

end Sys2Proof.Machine
end

