-- ==== Sys2Proof/Machine/Flags.lean ====
section
/-! DEFINITION. The status computations: the checksum accumulator, the Ack byte, the sync codes and the
ownership flag (spec/20_memory.md R55, spec/60_exceptions.md R140). There is no carry and no overflow flag. -/

namespace Sys2Proof.Machine

/-- The accumulator after one more byte, modulo 256 (R55, R115, R125). -/
def checksumAdd (acc b : Byte) : Byte := acc + b

/-- The sum modulo 256 of bytes added to an accumulator (R117, R127). -/
def checksumSum (acc : Byte) (bytes : List Byte) : Byte := bytes.foldl checksumAdd acc

/-- The Ack byte a checksum comparison gives (R113). -/
def checksumAck (acc v : Byte) : Byte := if acc = v then Config.ackPass else Config.ackFail

/-- The ownership flag after a successful read of Ack (R124). -/
def ownerAfterAck (ack : Byte) (owner : Bool) : Bool := if ack = Config.ackPass then true else owner

/-- The sync code driven in TurnToPeripheral0, by direction alone (R98). -/
def turnCode (codes : WireCodes) (d : Direction) : Nibble :=
  match d with
  | .read => codes.syncShortWait
  | .write => codes.syncReady

end Sys2Proof.Machine
end

