-- ==== Sys2Proof/Machine/Transport.lean ====
section
/-! DEFINITION. The message transport: the write handler (spec/42_transport_write.md R110 to R116) and the read
handler (spec/43_transport_read.md R120 to R126), which are `MemWrite` and `MemRead` (R7). -/

namespace Sys2Proof.Machine

/-! ## Writes -/

/-- R112: write of Length. -/
def writeLength (v : Byte) (s : State) : State :=
  ((s.setAck Config.ackFail).setLength v).setChecksumAcc 0x00#8

/-- R113: write of Checksum, compared and not stored. -/
def writeChecksum (v : Byte) (s : State) : State := s.setAck (checksumAck s.checksumAcc v)

/-- R114: write of Ack. -/
def writeAck (v : Byte) (s : State) : State := (s.setAck v).setChecksumAcc 0x00#8

/-- R115: write of a payload byte. -/
def writePayload (a : Addr) (v : Byte) (s : State) : State :=
  (s.setBuf (s.buf.put (payloadOffset a) v)).setChecksumAcc (checksumAdd s.checksumAcc v)

/-- `TransportWrite(addr, v)`, the tests in the order of R110: the ownership gate (R111), the three control
registers, the payload, and nothing anywhere else (R116). -/
def transportWrite (a : Addr) (v : Byte) (s : State) : State :=
  if s.owner then s
  else if a = Config.addrLength then writeLength v s
  else if a = Config.addrChecksum then writeChecksum v s
  else if a = Config.addrAck then writeAck v s
  else if a ≤ Config.bufLast then writePayload a v s
  else s

/-! ## Reads: the byte of a successful read, none of a failed one (R120, D15; log 15) -/

/-- R122: read of Length. -/
def readLength (s : State) : Option Byte × State := (some s.length, s.setChecksumAcc 0x00#8)

/-- R123: read of Checksum. -/
def readChecksum (s : State) : Option Byte × State := (some s.checksumAcc, s)

/-- R124: read of Ack, which hands the buffer over when it is the pass byte. -/
def readAck (s : State) : Option Byte × State :=
  (some s.ack, (s.setChecksumAcc 0x00#8).setOwner (ownerAfterAck s.ack s.owner))

/-- R125: read of a payload byte. -/
def readPayload (a : Addr) (s : State) : Option Byte × State :=
  let b := s.buf.get (payloadOffset a)
  (some b, s.setChecksumAcc (checksumAdd s.checksumAcc b))

/-- `TransportRead(addr)`, the tests in the order of R120: the ownership gate (R121), the three control
registers, the payload, and failure anywhere else (R126). -/
def transportRead (a : Addr) (s : State) : Option Byte × State :=
  if s.owner then (none, s)
  else if a = Config.addrLength then readLength s
  else if a = Config.addrChecksum then readChecksum s
  else if a = Config.addrAck then readAck s
  else if a ≤ Config.bufLast then readPayload a s
  else (none, s)

end Sys2Proof.Machine
end

