-- ==== Sys2Proof/Machine/StateActions.lean ====
section
/-! DEFINITION. The cycle state machine: one action for each of the sixteen states
(spec/41_cycle_state_machine.md R91 to R106) and the meanings of the STATE rows. -/

namespace Sys2Proof.Machine

/-- The outcomes of this machine. -/
abbrev Result := Host.Outcome State Fault Refusal

/-! ## The actions -/

/-- R91: the cycle type and the direction are written even when the cycle is dropped. -/
def actCycTypeAndDir (n : Nibble) (s : State) : State :=
  let t := ctdirType s.codes n
  ((s.setCycType t).setDirection (ctdirDirection s.codes n)).goto (ctdirTarget t)

/-- R92 to R94: one address nibble, and the state that follows. -/
def actAddr (next : CycleState) (n : Nibble) (s : State) : State :=
  (s.setAddress (shiftIn s.address n)).goto next

/-- R95: the last address nibble; the direction says what follows. -/
def actAddr3 (n : Nibble) (s : State) : State := actAddr (addrTarget s.direction) n s

/-- R96. -/
def actDataWrite0 (n : Nibble) (s : State) : State :=
  (s.setData (withLowNibble s.data n)).goto .dataWrite1

/-- R97. -/
def actDataWrite1 (n : Nibble) (s : State) : State :=
  (s.setData (withHighNibble s.data n)).goto .turnToPeripheral0

/-- A drive of the output latch, and the state that follows (R98, R101 to R103). -/
def actDrive (n : Nibble) (next : CycleState) (s : State) : State := (s.setLadOut n).goto next

/-- A switch of the direction of the lines, and the state that follows (R99, R104). -/
def actTurn (d : LineDir) (next : CycleState) (s : State) : State := (s.setLadDir d).goto next

/-- R102: the high nibble. With it the host has the byte (R72), which the model's own field records (log 14). -/
def actDataRead1 (s : State) : State :=
  let t := actDrive (highNibble s.data) .turnToHost0 s
  t.setHostRead (hostSees s.ladPins t.ladPins s.hostRead)

/-- R100, the read branch: a failed read keeps the cycle in Sync with the wait code. -/
def actSyncRead (s : State) : State :=
  match transportRead s.address s with
  | (some b, t) => actDrive s.codes.syncReady .dataRead0 (t.setData b)
  | (none, t) => actDrive s.codes.syncShortWait .sync t

/-- R100, the write branch: the ready code, then one call of the handler. -/
def actSyncWrite (s : State) : State :=
  (transportWrite s.address s.data (s.setLadOut s.codes.syncReady)).goto .turnToHost0

/-- R100. -/
def actSync (s : State) : State :=
  match s.direction with
  | .read => actSyncRead s
  | .write => actSyncWrite s

/-- `StateStep(nibble)` (R90): the action of the current state, once. -/
def stateStep (n : Nibble) (s : State) : State :=
  match s.cycleState with
  | .idle => s.goto .idle
  | .cycTypeAndDir => actCycTypeAndDir n s
  | .addr0 => actAddr .addr1 n s
  | .addr1 => actAddr .addr2 n s
  | .addr2 => actAddr .addr3 n s
  | .addr3 => actAddr3 n s
  | .dataWrite0 => actDataWrite0 n s
  | .dataWrite1 => actDataWrite1 n s
  | .turnToPeripheral0 => actDrive (turnCode s.codes s.direction) .turnToPeripheral1 s
  | .turnToPeripheral1 => actTurn .peripheral .sync s
  | .sync => actSync s
  | .dataRead0 => actDrive (lowNibble s.data) .dataRead1 s
  | .dataRead1 => actDataRead1 s
  | .turnToHost0 => actDrive Config.releasePattern .turnToHost1 s
  | .turnToHost1 => actTurn .host .idle s
  | .abort => s.goto .abort

/-! ## The meanings of the STATE rows -/

/-- STATE.Idle (R106): nothing. -/
def execStIdle (_ : Nibble) (s : State) : Result := .next (s.goto .idle)

/-- STATE.CycTypeAndDir (R91). -/
def execStCycTypeAndDir (n : Nibble) (s : State) : Result := .next (actCycTypeAndDir n s)

/-- STATE.Addr0 (R92). -/
def execStAddr0 (n : Nibble) (s : State) : Result := .next (actAddr .addr1 n s)

/-- STATE.Addr1 (R93). -/
def execStAddr1 (n : Nibble) (s : State) : Result := .next (actAddr .addr2 n s)

/-- STATE.Addr2 (R94). -/
def execStAddr2 (n : Nibble) (s : State) : Result := .next (actAddr .addr3 n s)

/-- STATE.Addr3 (R95). -/
def execStAddr3 (n : Nibble) (s : State) : Result := .next (actAddr3 n s)

/-- STATE.DataWrite0 (R96). -/
def execStDataWrite0 (n : Nibble) (s : State) : Result := .next (actDataWrite0 n s)

/-- STATE.DataWrite1 (R97). -/
def execStDataWrite1 (n : Nibble) (s : State) : Result := .next (actDataWrite1 n s)

/-- STATE.TurnToPeripheral0 (R98). -/
def execStTurnToPeripheral0 (_ : Nibble) (s : State) : Result :=
  .next (actDrive (turnCode s.codes s.direction) .turnToPeripheral1 s)

/-- STATE.TurnToPeripheral1 (R99). -/
def execStTurnToPeripheral1 (_ : Nibble) (s : State) : Result := .next (actTurn .peripheral .sync s)

/-- STATE.Sync (R100). -/
def execStSync (_ : Nibble) (s : State) : Result := .next (actSync s)

/-- STATE.DataRead0 (R101). -/
def execStDataRead0 (_ : Nibble) (s : State) : Result := .next (actDrive (lowNibble s.data) .dataRead1 s)

/-- STATE.DataRead1 (R102). -/
def execStDataRead1 (_ : Nibble) (s : State) : Result := .next (actDataRead1 s)

/-- STATE.TurnToHost0 (R103). -/
def execStTurnToHost0 (_ : Nibble) (s : State) : Result :=
  .next (actDrive Config.releasePattern .turnToHost1 s)

/-- STATE.TurnToHost1 (R104). -/
def execStTurnToHost1 (_ : Nibble) (s : State) : Result := .next (actTurn .host .idle s)

/-- STATE.Abort (R105): nothing. -/
def execStAbort (_ : Nibble) (s : State) : Result := .next (s.goto .abort)

end Sys2Proof.Machine
end

