-- ==== Sys2Proof/Machine/Application.lean ====
section
/-! DEFINITION. The application's two calls (spec/44_application_handoff.md R130 to R134). A call is one atomic
step (R50); what it returns stands in `reply`. -/

namespace Sys2Proof.Machine

/-- What `Peek()` returns (R130, R131). -/
def peekReply (s : State) : AppReply :=
  if s.owner then .available s.buf s.length else .notAvailable

/-- `Submit` accepted (R132): the bytes from offset 0 on, the length, and last the ownership. -/
def acceptSubmit (payload : List Byte) (s : State) : State :=
  ((((s.setBuf (s.buf.putBytes 0 payload)).setLength (BitVec.ofNat 8 payload.length)).setOwner false).setReply .ok)

/-- `Submit` with 256 bytes: the implementation's choice, on which no claim may rest (R134, D18; log 7). With
`lengthZero` the length stored is 256 modulo 256. -/
def submitFull (choice : Config.Submit256) (payload : List Byte) (s : State) : State :=
  match choice with
  | .failed => s.setReply .failed
  | .lengthZero => acceptSubmit payload s

/-- `Submit(payload, n)` with `n` the number of bytes of the payload, the tests in the order of R132: ownership
first (R133), then the length (R134). -/
def submitCall (payload : List Byte) (s : State) : State :=
  if s.owner = false then s.setReply .failed
  else if payload.length ≤ 255 then acceptSubmit payload s
  else if payload.length = 256 then submitFull Config.submit256 payload s
  else s.setReply .failed

/-- PEEK (R130, R131): no register is written. -/
def execPeek (s : State) : Result := .next (s.setReply (peekReply s))

/-- SUBMIT (R132 to R134). -/
def execSubmit (payload : List Byte) (s : State) : Result := .next (submitCall payload s)

end Sys2Proof.Machine
end

