-- ==== Sys2Proof/Machine/FrameSampler.lean ====
section
/-! DEFINITION. The frame sampler: the four frame events (spec/40_frame_sampler.md R82 to R85), the per-edge
procedure (R80), runs of edges and what the host observes in them, and the meanings of the EVENT rows. -/

namespace Sys2Proof.Machine

/-- R82, FALL: the frame-strobe reset; the sampled nibble is discarded. -/
def fallEdge (s : State) : State := frameReset (s.setStrobePrev .active)

/-- R83, HOLD: the nibble is latched as the frame code. -/
def holdEdge (n : Nibble) (s : State) : State := (s.setStrobePrev .active).setFrameInfo n

/-- R84, RISE: the latched code selects the state, whose action runs in the same edge. -/
def riseEdge (n : Nibble) (s : State) : State :=
  stateStep n ((s.setStrobePrev .inactive).goto (frameTarget s.codes s.frameInfo))

/-- R85, RUN: the action of the current state. -/
def runEdge (n : Nibble) (s : State) : State := stateStep n (s.setStrobePrev .inactive)

/-- `EdgeStep(lad_in, strobe)` (R80, R81). -/
def edgeStep (n : Nibble) (strobe : Strobe) (s : State) : State :=
  match s.strobePrev, strobe with
  | .inactive, .active => fallEdge s
  | .active, .active => holdEdge n s
  | .active, .inactive => riseEdge n s
  | .inactive, .inactive => runEdge n s

/-- The state after a run of edges. -/
def runEdges (l : List Sample) (s : State) : State :=
  match l with
  | [] => s
  | e :: rest => runEdges rest (edgeStep e.ladIn e.strobe s)

/-- What the lines show after each edge of a run (R26). -/
def pinsTrace (l : List Sample) (s : State) : List LadPins :=
  match l with
  | [] => []
  | e :: rest => (edgeStep e.ladIn e.strobe s).ladPins :: pinsTrace rest (edgeStep e.ladIn e.strobe s)

/-! ## The meanings of the EVENT rows -/

/-- FALL (R82). -/
def execFall (_ : Nibble) (s : State) : Result := .next (fallEdge s)

/-- HOLD (R83). -/
def execHold (n : Nibble) (s : State) : Result := .next (holdEdge n s)

/-- RISE (R84). -/
def execRise (n : Nibble) (s : State) : Result := .next (riseEdge n s)

/-- RUN (R85). -/
def execRun (n : Nibble) (s : State) : Result := .next (runEdge n s)

end Sys2Proof.Machine
end

