-- ==== Sys2Proof/Machine/Cycles.lean ====
section
/-! DEFINITION. Whole frames and bus cycles (spec/30_encoding.md R62, R68, R72): the meanings of the FRAME,
CTDIR, IOW and IOR rows, each the edges the host presents for it, run without an interruption. DESIGN CHOICE,
safe: an application call between two edges is given by presenting the edges one by one (log 4). -/

namespace Sys2Proof.Machine

/-- A frame and its RISE edge (R63, R84). -/
def frameCycle (code n : Nibble) (s : State) : State := runEdges (frameEdges code n) s

/-- A start frame whose CTDIR nibble ends the cycle at t = 0 (R64, R91). -/
def droppedCycle (t : CycleType) (d : Direction) (bit0 : Bool) (s : State) : State :=
  frameCycle s.codes.frameStart (ctdirNibble s.codes t d bit0) s

/-- `IOW addr, v` (R72). -/
def writeCycle (bit0 : Bool) (a : Addr) (v : Byte) (s : State) : State := runEdges (writeEdges s.codes bit0 a v) s

/-- `IOR addr` (R72): the edges until `Idle`, with no byte for the host before the DataRead1 edge. A read that fails
leaves the cycle in Sync and the line open; further edges change nothing until the handler succeeds, and then the step
goes on with the line (R49, R53, R100; `readGoesOn`; log 5). -/
def readCycle (bit0 : Bool) (a : Addr) (s : State) : State :=
  let t := runEdges (readEdges s.codes bit0 a) (s.setHostRead none)
  t.setReadOpen (decide (t.cycleState ≠ .idle))

/-! ## FRAME rows -/

/-- FRAME.START (R84): the RISE nibble is taken as CTDIR. -/
def execFrameStart (n : Nibble) (s : State) : Result := .next (frameCycle s.codes.frameStart n s)

/-- FRAME.ABORT (R84, R105). -/
def execFrameAbort (n : Nibble) (s : State) : Result := .next (frameCycle s.codes.frameAbort n s)

/-- FRAME.OTHER (R84): the fourteen unrecognized codes. -/
def execFrameOther (code n : Nibble) (s : State) : Result := .next (frameCycle code n s)

/-! ## CTDIR rows -/

/-- CYC.MEM (R91). -/
def execCycMem (d : Direction) (bit0 : Bool) (s : State) : Result := .next (droppedCycle .memory d bit0 s)

/-- CYC.DMA (R91). -/
def execCycDma (d : Direction) (bit0 : Bool) (s : State) : Result := .next (droppedCycle .dma d bit0 s)

/-- CYC.RSVD (R91). -/
def execCycRsvd (d : Direction) (bit0 : Bool) (s : State) : Result := .next (droppedCycle .reserved d bit0 s)

/-! ## IOW rows -/

/-- IOW.LENGTH (R112). -/
def execIowLength (bit0 : Bool) (v : Byte) (s : State) : Result :=
  .next (writeCycle bit0 Config.addrLength v s)

/-- IOW.CHECKSUM (R113). -/
def execIowChecksum (bit0 : Bool) (v : Byte) (s : State) : Result :=
  .next (writeCycle bit0 Config.addrChecksum v s)

/-- IOW.ACK (R114). -/
def execIowAck (bit0 : Bool) (v : Byte) (s : State) : Result := .next (writeCycle bit0 Config.addrAck v s)

/-- IOW.PAYLOAD (R115). -/
def execIowPayload (bit0 : Bool) (offset v : Byte) (s : State) : Result :=
  .next (writeCycle bit0 (payloadAddr offset) v s)

/-- IOW.NONE (R116). -/
def execIowNone (bit0 : Bool) (a : Addr) (v : Byte) (s : State) : Result := .next (writeCycle bit0 a v s)

/-! ## IOR rows -/

/-- IOR.LENGTH (R122). -/
def execIorLength (bit0 : Bool) (s : State) : Result := .next (readCycle bit0 Config.addrLength s)

/-- IOR.CHECKSUM (R123). -/
def execIorChecksum (bit0 : Bool) (s : State) : Result := .next (readCycle bit0 Config.addrChecksum s)

/-- IOR.ACK (R124). -/
def execIorAck (bit0 : Bool) (s : State) : Result := .next (readCycle bit0 Config.addrAck s)

/-- IOR.PAYLOAD (R125). -/
def execIorPayload (bit0 : Bool) (offset : Byte) (s : State) : Result :=
  .next (readCycle bit0 (payloadAddr offset) s)

/-- IOR.NONE (R126). -/
def execIorNone (bit0 : Bool) (a : Addr) (s : State) : Result := .next (readCycle bit0 a s)

end Sys2Proof.Machine
end

