-- ==== Sys2Proof/Machine/Dispatch.lean ====
section
/-! DEFINITION. The dispatch: one arm for each constructor of `Instr`, one direct call of its meaning. -/

namespace Sys2Proof.Machine

def exec (i : Instr) (s : State) : Host.Outcome State Fault Refusal :=
  match i with
  | .fall n => Sys2Proof.Machine.execFall n s
  | .hold n => Sys2Proof.Machine.execHold n s
  | .rise n => Sys2Proof.Machine.execRise n s
  | .run n => Sys2Proof.Machine.execRun n s
  | .stIdle n => Sys2Proof.Machine.execStIdle n s
  | .stCycTypeAndDir n => Sys2Proof.Machine.execStCycTypeAndDir n s
  | .stAddr0 n => Sys2Proof.Machine.execStAddr0 n s
  | .stAddr1 n => Sys2Proof.Machine.execStAddr1 n s
  | .stAddr2 n => Sys2Proof.Machine.execStAddr2 n s
  | .stAddr3 n => Sys2Proof.Machine.execStAddr3 n s
  | .stDataWrite0 n => Sys2Proof.Machine.execStDataWrite0 n s
  | .stDataWrite1 n => Sys2Proof.Machine.execStDataWrite1 n s
  | .stTurnToPeripheral0 n => Sys2Proof.Machine.execStTurnToPeripheral0 n s
  | .stTurnToPeripheral1 n => Sys2Proof.Machine.execStTurnToPeripheral1 n s
  | .stSync n => Sys2Proof.Machine.execStSync n s
  | .stDataRead0 n => Sys2Proof.Machine.execStDataRead0 n s
  | .stDataRead1 n => Sys2Proof.Machine.execStDataRead1 n s
  | .stTurnToHost0 n => Sys2Proof.Machine.execStTurnToHost0 n s
  | .stTurnToHost1 n => Sys2Proof.Machine.execStTurnToHost1 n s
  | .stAbort n => Sys2Proof.Machine.execStAbort n s
  | .peek => Sys2Proof.Machine.execPeek s
  | .submit payload => Sys2Proof.Machine.execSubmit payload s
  | .frameStart n => Sys2Proof.Machine.execFrameStart n s
  | .frameAbort n => Sys2Proof.Machine.execFrameAbort n s
  | .frameOther code n => Sys2Proof.Machine.execFrameOther code n s
  | .cycMem d bit0 => Sys2Proof.Machine.execCycMem d bit0 s
  | .cycDma d bit0 => Sys2Proof.Machine.execCycDma d bit0 s
  | .cycRsvd d bit0 => Sys2Proof.Machine.execCycRsvd d bit0 s
  | .iowLength bit0 v => Sys2Proof.Machine.execIowLength bit0 v s
  | .iowChecksum bit0 v => Sys2Proof.Machine.execIowChecksum bit0 v s
  | .iowAck bit0 v => Sys2Proof.Machine.execIowAck bit0 v s
  | .iowPayload bit0 offset v => Sys2Proof.Machine.execIowPayload bit0 offset v s
  | .iowNone bit0 a v => Sys2Proof.Machine.execIowNone bit0 a v s
  | .iorLength bit0 => Sys2Proof.Machine.execIorLength bit0 s
  | .iorChecksum bit0 => Sys2Proof.Machine.execIorChecksum bit0 s
  | .iorAck bit0 => Sys2Proof.Machine.execIorAck bit0 s
  | .iorPayload bit0 offset => Sys2Proof.Machine.execIorPayload bit0 offset s
  | .iorNone bit0 a => Sys2Proof.Machine.execIorNone bit0 a s

end Sys2Proof.Machine
end

