-- ==== Sys2Proof/Machine/Fetch.lean ====
section
/-! DEFINITION. What the step fetches. The block fetches nothing from its address space (spec/20_memory.md
R54): its instruction stream is what the outside does. The host's sample becomes an event word with
`strobe_prev` (spec/30_encoding.md R61), a call becomes a selector (R73), and a whole frame or cycle is its
own word (R68). -/

namespace Sys2Proof.Machine

/-! ## What happens next -/

/-- The host opens a frame: a sample with the strobe active, or a whole frame or cycle. -/
def opensFrame (x : Stimulus) : Bool :=
  match x with
  | .act (.sample .active _) => true
  | .act (.sample .inactive _) => false
  | .act .peek => false
  | .act (.submit _) => false
  | .cycle _ _ => true

/-- What the outside does next: the oldest listed stimulus, or a free action (log 1). -/
def upcoming (s : State) : Stimulus :=
  match s.pending with
  | [] => .act (Config.outside s.drawn)
  | x :: _ => x

/-- The host's line `IOR` is open and its next edge takes the cycle on towards `Idle`: the handler would succeed now, or
has succeeded. Then the line's edges are presented until `Idle` (R72), before what the outside does next (log 5). While
a read still fails, its edges change nothing (R49), and what the outside does next falls between them (R50). -/
def readGoesOn (s : State) : Bool :=
  s.readOpen && decide (s.strobePrev = .inactive) &&
    match s.cycleState with
    | .sync => (transportRead s.address s).1.isSome
    | .dataRead0 | .dataRead1 | .turnToHost0 | .turnToHost1 => true
    | _ => false

/-- An edge of a line `IOR` after its wait, with `lad_in` free (R72; log 6). -/
def lineEdge : Stimulus := .act (.sample .inactive (Config.freeLadIn 14))

/-- What happens next. -/
def nextStimulus (s : State) : Stimulus := if readGoesOn s then lineEdge else upcoming s

/-- The state with the outside's next stimulus taken. -/
def takeUpcoming (s : State) : State :=
  match s.pending with
  | [] => s.setDrawn (s.drawn + 1)
  | _ :: rest => s.setPending rest

/-- The state with what happens next taken: an edge of the open line takes nothing, and a new frame ends the line, a
waiting one by giving up (R49, R175). -/
def advance (s : State) : State :=
  if readGoesOn s then s
  else if opensFrame (upcoming s) then (takeUpcoming s).setReadOpen false
  else takeUpcoming s

/-! ## Packets -/

/-- The format of a whole frame or cycle. -/
def kindFormat (k : CycleKind) : Format :=
  match k with
  | .frame => .frame
  | .ctdir => .ctdir
  | .iow => .iow
  | .ior => .ior

/-- The packet of a stimulus: a sample is keyed by the strobe's previous and new level. -/
def stimulusPacket (prev : Strobe) (x : Stimulus) : Packet :=
  match x with
  | .act (.sample strobe n) => ⟨.event, [eventKey prev strobe, n], []⟩
  | .act .peek => ⟨.app, [0#4], []⟩
  | .act (.submit payload) => ⟨.app, [1#4], payload⟩
  | .cycle k nibbles => ⟨kindFormat k, nibbles, []⟩

/-- The packet the next step decodes. -/
def fetchPacket (s : State) : Packet := stimulusPacket s.strobePrev (nextStimulus s)

/-! ## Placing a table word -/

/-- The strobe level of a bit of an event key. -/
def keyStrobe (b : Bool) : Strobe := if b then .active else .inactive

/-- `s` with a stimulus placed before all others, and no line of the host open, whose edges would come before it. -/
def State.place (s : State) (x : Stimulus) : State := (s.setReadOpen false).setPending (x :: s.pending)

/-- `s` with a word of a format placed so that the next step runs it: an event needs the previous strobe level
of its key, a state action needs `cycle_state` and an edge without a frame event (R61, R74). -/
def placeWord (s : State) (f : Format) (w : Nat) : State :=
  let n0 := wordNibble w 0
  match f with
  | .event =>
    (s.setStrobePrev (keyStrobe (n0.getLsbD 1))).place (.act (.sample (keyStrobe (n0.getLsbD 0)) 0#4))
  | .state =>
    ((s.setStrobePrev .inactive).goto (CycleState.ofOrdinal n0)).place (.act (.sample .inactive 0#4))
  | .frame => s.place (.cycle .frame (tableNibbles f w))
  | .ctdir => s.place (.cycle .ctdir (tableNibbles f w))
  | .iow => s.place (.cycle .iow (tableNibbles f w))
  | .ior => s.place (.cycle .ior (tableNibbles f w))
  | .app => s.place (.act (if n0.getLsbD 0 then .submit [] else .peek))

/-- `s` with a table word of `nbits` bits placed; a word that no format has leaves `s` as it is. -/
def placeTableWord (s : State) (nbits w : Nat) : State :=
  match tableFormat nbits with
  | some f => if w < 2 ^ f.width then placeWord s f w else s
  | none => s

end Sys2Proof.Machine
end

