-- ==== Sys2Proof/Machine/Step.lean ====
section
/-! DEFINITION. One step of the machine: the next stimulus of the outside is fetched, decoded and executed. -/

namespace Sys2Proof.Machine

/-- One step: one EdgeStep, one application call, or one whole frame or cycle of the host (R9, R72). -/
def step (s : State) : Host.Outcome State Fault Refusal :=
  match decode s.codes (fetchPacket s) with
  | .ok i => exec i (advance s)
  | .error e => .refused (.noInstruction e)

/-- `s` with the instruction of a table word placed where `step` fetches next (log 2). -/
def State.withFetchWord (s : State) (nbits w : Nat) : State := placeTableWord s nbits w

end Sys2Proof.Machine
end

