-- ==== Sys2Proof/Safety.lean ====
section
/-! DEFINITION. What counts as a safe state and a safe run: the invariants the block keeps between two steps
(spec/10_state.md R28, spec/41_cycle_state_machine.md R107, R108), and rest (spec/70_reset_and_hazards.md R182). -/

namespace Sys2Proof.Safety

open Sys2Proof.Machine

/-- The states in which the block drives the data lines (spec/30_encoding.md R62, R99, R104). -/
def driving (c : CycleState) : Bool :=
  match c with
  | .sync | .dataRead0 | .dataRead1 | .turnToHost0 | .turnToHost1 => true
  | _ => false

/-- The states of a cycle that has passed its CTDIR nibble. -/
def inCycle (c : CycleState) : Bool :=
  match c with
  | .idle | .cycTypeAndDir | .abort => false
  | _ => true

/-- The direction a state belongs to, where it belongs to one only (R108). -/
def stateDirection (c : CycleState) : Option Direction :=
  match c with
  | .dataWrite0 | .dataWrite1 => some .write
  | .dataRead0 | .dataRead1 => some .read
  | _ => none

/-- What the output latch holds on entry to a state, where a cycle has driven it (R98 to R103). -/
def latched (codes : WireCodes) (c : CycleState) (d : Direction) (b : Byte) : Option Nibble :=
  match c with
  | .turnToPeripheral1 | .sync => some (turnCode codes d)
  | .dataRead0 => some codes.syncReady
  | .dataRead1 => some (lowNibble b)
  | .turnToHost0 =>
    match d with
    | .read => some (highNibble b)
    | .write => some codes.syncReady
  | .turnToHost1 => some Config.releasePattern
  | _ => none

/-- The decoder's invariant between two steps (R108, R91, R98 to R103): `CycTypeAndDir` is never left standing;
while the strobe is active the machine is idle; the lines are driven in exactly the five driving states; a
cycle past its CTDIR nibble is an IO cycle; a state of one direction is reached in that direction only; and the
latch holds what the last drive of the cycle put there. -/
def DecoderOk (s : State) : Prop :=
  s.cycleState ≠ .cycTypeAndDir ∧
  (s.strobePrev = .active → s.cycleState = .idle) ∧
  (s.ladDir = .peripheral ↔ driving s.cycleState = true) ∧
  (inCycle s.cycleState = true → s.cycType = .io) ∧
  (∀ d, stateDirection s.cycleState = some d → s.direction = d) ∧
  (∀ n, latched s.codes s.cycleState s.direction s.data = some n → s.ladOut = n)

/-- The transport's invariant (R124, D19): while the application owns the buffer, Ack holds the pass byte and
the accumulator is 0. -/
def HandoffOk (s : State) : Prop :=
  s.owner = true → s.ack = Config.ackPass ∧ s.checksumAcc = 0x00#8

/-- The buffer is in its canonical form. -/
def BufferOk (s : State) : Prop := s.buf.wf = true

/-- A quiescent state (R182). -/
def Quiescent (s : State) : Prop :=
  (s.cycleState = .idle ∨ s.cycleState = .abort) ∧ s.ladDir = .host ∧ s.strobePrev = .inactive

/-- The configuration tells apart what it names (R63, R64, R67). -/
def CodesOk (s : State) : Prop := s.codes.wf = true

/-- A safe state: the invariants together. A run is safe when every state of it is. -/
def Safe (s : State) : Prop := DecoderOk s ∧ HandoffOk s ∧ BufferOk s ∧ CodesOk s

end Sys2Proof.Safety
end

