-- ==== Sys2Proof/Certificates/Slice0/Obligations.lean ====
section
/-! DEFINITION. The statements for the provers, each from the rules of spec/ that its docstring names. A statement
that rests on a choice of the model says so and names the log entry. The wire codes (frame, CTDIR and sync codes) are
the configuration's, whatever they are, with the premise that they tell apart what they name, as
spec/92_eei_decisions.md asks of them, where a statement needs it (log 11); only the words of the opcode table are keyed
to the spec's defaults. Where a statement runs a row of the formats FRAME, CTDIR, IOW or IOR, the cycle's edges are
taken as one step (log 4), and what the decoder's registers hold after them follows the edge tables of R62, which the
spec derives. -/

namespace Sys2Proof.Claims

open Sys2Proof.Machine

/-- The state after a whole write cycle, but for what the handler wrote (spec/30_encoding.md R62). -/
def afterWrite (a : Addr) (v : Byte) (s : State) : State :=
  { s with
    cycleState := .idle, frameInfo := s.codes.frameStart, strobePrev := .inactive, cycType := .io, direction := .write,
    address := a, data := v, ladOut := 0xF#4, ladDir := .host }

/-- The state after a whole read cycle whose read succeeded with `v`, but for what the handler wrote (R62). -/
def afterRead (a : Addr) (v : Byte) (s : State) : State :=
  { s with
    cycleState := .idle, frameInfo := s.codes.frameStart, strobePrev := .inactive, cycType := .io, direction := .read,
    address := a, data := v, ladOut := 0xF#4, ladDir := .host, hostRead := some v, readOpen := false }

/-- The state of a read cycle that waits in Sync with the wait code on the lines, its line open (R62, R72, R100). -/
def heldInSync (a : Addr) (s : State) : State :=
  { s with
    cycleState := .sync, frameInfo := s.codes.frameStart, strobePrev := .inactive, cycType := .io, direction := .read,
    address := a, ladOut := s.codes.syncShortWait, ladDir := .peripheral, hostRead := none, readOpen := true }

/-- The state after a frame's active edges, given its code: the lines are released when the frame began with a
falling edge. -/
def framed (code : Nibble) (s : State) : State :=
  { s with
    frameInfo := code, strobePrev := .inactive,
    ladDir := if s.strobePrev = .inactive then .host else s.ladDir }

/-- The instructions of a host program, one after the other. -/
def runAll (l : List Instr) (s : State) : Host.Outcome State Fault Refusal :=
  match l with
  | [] => .next s
  | i :: rest =>
    match exec i s with
    | .next t => runAll rest t
    | .fault f => .fault f
    | .refused r => .refused r

/-- A number of steps. -/
def stepMany (k : Nat) (s : State) : Host.Outcome State Fault Refusal :=
  match k with
  | 0 => .next s
  | k + 1 =>
    match step s with
    | .next t => stepMany k t
    | .fault f => .fault f
    | .refused r => .refused r

/-- The sum of bytes modulo 256. -/
def sumMod256 (l : List Byte) : Nat := (l.map BitVec.toNat).sum % 256

/-- The states whose action consumes the sampled nibble (R109). -/
def consumes (c : CycleState) : Bool :=
  match c with
  | .cycTypeAndDir | .addr0 | .addr1 | .addr2 | .addr3 | .dataWrite0 | .dataWrite1 => true
  | _ => false

/-- The state whose action runs at an edge with the strobe inactive (R84, R85). -/
def actingState (s : State) : CycleState :=
  match s.strobePrev with
  | .active => frameTarget s.codes s.frameInfo
  | .inactive => s.cycleState

end Sys2Proof.Claims

open Sys2Proof Sys2Proof.Machine Sys2Proof.Safety Sys2Proof.Claims

/-! ## Encoding -/

/-- Decoding what the encoder writes gives the instruction back, for every configuration whose codes tell apart what
they name, every well-formed instruction and every operand (spec/30_encoding.md R63 to R69, R73, R74). -/
def Obligations.DecodeReadsWhatEncodeWrites : Prop :=
  ∀ (codes : WireCodes) (i : Instr), codes.wf = true → i.wf codes = true → decode codes (encode codes i) = .ok i

/-- Whatever the decoder accepts is the encoding of a well-formed instruction, so no two packets decode to one
instruction and no bit of a packet is dropped. -/
def Obligations.DecodedPacketsAreEncodings : Prop :=
  ∀ (codes : WireCodes) (p : Packet) (i : Instr), codes.wf = true → decode codes p = .ok i →
    i.wf codes = true ∧ encode codes i = p

/-- Words written out from R64, R68 and R74 with the spec's default codes (log 11) decode to the rows they stand for
(spec/96_edge_traces.md T17). The formats FRAME, EVENT, STATE and APP have no bits for an operand: that their words
decode with the nibble zero and the payload empty is the model's choice (log 22). -/
def Obligations.WrittenWordsDecode : Prop :=
  decodeWord {} .iow 0x02010010 = some (.iowLength false 0x01#8) ∧
  decodeWord {} .iow 0x03010010 = some (.iowLength true 0x01#8) ∧
  decodeWord {} .iow 0x020102FA = some (.iowAck false 0xAF#8) ∧
  decodeWord {} .iow 0x0200FF20 = some (.iowPayload false 0xFF#8 0x02#8) ∧
  decodeWord {} .ior 0x000103 = some (.iorNone false 0x0103#16) ∧
  decodeWord {} .ctdir 0x06 = some (.cycMem .write false) ∧
  decodeWord {} .ctdir 0x0F = some (.cycRsvd .write true) ∧
  decodeWord {} .frame 0xF = some (.frameAbort 0#4) ∧
  decodeWord {} .event 2 = some (.rise 0#4) ∧
  decodeWord {} .state 10 = some (.stSync 0#4) ∧
  decodeWord {} .app 1 = some (.submit [])

/-- R69: the mask and match columns of the table select the rows of the IOW and IOR formats, with the operands in
the bits R68 gives them; the catch-all rows take what the rows before them leave. The table's words are keyed to the
spec's default codes (log 11). -/
def Obligations.MaskAndMatchSelectTheCycleRows : Prop :=
  (∀ w : BitVec 32,
    (w &&& 0xFEFFFF00#32 = 0x02010000#32 →
      decodeWord {} .iow w.toNat = some (.iowLength (w.getLsbD 24) (w.extractLsb' 0 4 ++ w.extractLsb' 4 4))) ∧
    (w &&& 0xFEFFFF00#32 = 0x02010100#32 →
      decodeWord {} .iow w.toNat = some (.iowChecksum (w.getLsbD 24) (w.extractLsb' 0 4 ++ w.extractLsb' 4 4))) ∧
    (w &&& 0xFEFFFF00#32 = 0x02010200#32 →
      decodeWord {} .iow w.toNat = some (.iowAck (w.getLsbD 24) (w.extractLsb' 0 4 ++ w.extractLsb' 4 4))) ∧
    (w &&& 0xFEFF0000#32 = 0x02000000#32 →
      decodeWord {} .iow w.toNat =
        some (.iowPayload (w.getLsbD 24) (w.extractLsb' 8 8) (w.extractLsb' 0 4 ++ w.extractLsb' 4 4))) ∧
    (w &&& 0xFE000000#32 = 0x02000000#32 → w &&& 0xFEFFFF00#32 ≠ 0x02010000#32 →
      w &&& 0xFEFFFF00#32 ≠ 0x02010100#32 → w &&& 0xFEFFFF00#32 ≠ 0x02010200#32 →
      w &&& 0xFEFF0000#32 ≠ 0x02000000#32 →
      decodeWord {} .iow w.toNat =
        some (.iowNone (w.getLsbD 24) (w.extractLsb' 8 16) (w.extractLsb' 0 4 ++ w.extractLsb' 4 4)))) ∧
  (∀ w : BitVec 24,
    (w &&& 0xFEFFFF#24 = 0x000100#24 → decodeWord {} .ior w.toNat = some (.iorLength (w.getLsbD 16))) ∧
    (w &&& 0xFEFFFF#24 = 0x000101#24 → decodeWord {} .ior w.toNat = some (.iorChecksum (w.getLsbD 16))) ∧
    (w &&& 0xFEFFFF#24 = 0x000102#24 → decodeWord {} .ior w.toNat = some (.iorAck (w.getLsbD 16))) ∧
    (w &&& 0xFEFF00#24 = 0x000000#24 →
      decodeWord {} .ior w.toNat = some (.iorPayload (w.getLsbD 16) (w.extractLsb' 0 8))) ∧
    (w &&& 0xFE0000#24 = 0x000000#24 → w &&& 0xFEFFFF#24 ≠ 0x000100#24 → w &&& 0xFEFFFF#24 ≠ 0x000101#24 →
      w &&& 0xFEFFFF#24 ≠ 0x000102#24 → w &&& 0xFEFF00#24 ≠ 0x000000#24 →
      decodeWord {} .ior w.toNat = some (.iorNone (w.getLsbD 16) (w.extractLsb' 0 16))))

/-! ## The step -/

/-- A step runs the decoded instruction on the state with what happens next taken, and changes nothing else: an edge
of an open line takes nothing; else the list of stimuli loses its head, or, when it is empty, one free action is
counted, and a new frame of the host ends an open line. A packet that is no instruction is refused by name. The list,
the count and the open line are the model's own (log 1, log 5, log 21). -/
def Obligations.StepRunsTheDecodedInstruction : Prop :=
  ∀ s : State,
    (∀ i, decode s.codes (fetchPacket s) = .ok i →
      step s = exec i (if readGoesOn s = true then s else { s with
        pending := s.pending.tail, drawn := if s.pending = [] then s.drawn + 1 else s.drawn,
        readOpen := if opensFrame (upcoming s) = true then false else s.readOpen })) ∧
    (∀ e, decode s.codes (fetchPacket s) = .error e → step s = .refused (.noInstruction e))

/-- R80 with R61: a sample at one edge. The previous and the new strobe level select one of four events, tested in the
source's order, and the step is that event's. That samples come from a list, and that an open line of the host goes on
before them (CallsAndCyclesAreFetched), is the model's choice (log 1, log 5). -/
def Obligations.EdgeProcedureInTheSourceOrder : Prop :=
  ∀ (s : State) (strobe : Strobe) (n : Nibble) (rest : List Stimulus),
    s.pending = .act (.sample strobe n) :: rest → readGoesOn s = false →
    step s = exec (Instr.ofEvent s.strobePrev strobe n) { s with
      pending := rest, readOpen := if strobe = .active then false else s.readOpen } ∧
    (s.strobePrev = .inactive → strobe = .active →
      step s = .next { s with
        pending := rest, readOpen := false, strobePrev := .active, cycleState := .idle, ladDir := .host }) ∧
    (s.strobePrev = .active → strobe = .active →
      step s = .next { s with pending := rest, readOpen := false, strobePrev := .active, frameInfo := n }) ∧
    (s.strobePrev = .active → strobe = .inactive →
      step s = .next (stateStep n { s with
        pending := rest, strobePrev := .inactive,
        cycleState := if s.frameInfo = s.codes.frameStart then .cycTypeAndDir
          else if s.frameInfo = s.codes.frameAbort then .abort else .idle })) ∧
    (s.strobePrev = .inactive → strobe = .inactive →
      step s = .next (stateStep n { s with pending := rest, strobePrev := .inactive }))

/-- The other stimuli, when no open line of the host goes on: an application call is PEEK or SUBMIT, and a whole cycle
given as the nibbles of R68 is the row of its address. When an open line goes on, the step is a RUN edge of that line
and takes nothing (R72). That a cycle can be given whole, and that its line is held open in a wait and goes first after
it, is the model's choice (log 4, log 5). -/
def Obligations.CallsAndCyclesAreFetched : Prop :=
  ∀ (s : State) (rest : List Stimulus),
    (readGoesOn s = false → s.pending = .act .peek :: rest → step s = exec .peek { s with pending := rest }) ∧
    (∀ m, readGoesOn s = false → s.pending = .act (.submit m) :: rest → step s = exec (.submit m) { s with pending := rest }) ∧
    (∀ (bit0 : Bool) (a : Addr) (v : Byte), readGoesOn s = false →
      s.pending = .cycle .iow [s.codes.frameStart,
        s.codes.cycTypeIo ++ (BitVec.ofBool s.codes.dirWrite ++ BitVec.ofBool bit0 : BitVec 2),
        a.extractLsb' 12 4, a.extractLsb' 8 4, a.extractLsb' 4 4, a.extractLsb' 0 4, v.extractLsb' 0 4, v.extractLsb' 4 4] :: rest →
      step s = exec (Instr.iow bit0 a v) { s with pending := rest, readOpen := false }) ∧
    (∀ (bit0 : Bool) (a : Addr), readGoesOn s = false →
      s.pending = .cycle .ior [s.codes.frameStart,
        s.codes.cycTypeIo ++ (BitVec.ofBool (!s.codes.dirWrite) ++ BitVec.ofBool bit0 : BitVec 2),
        a.extractLsb' 12 4, a.extractLsb' 8 4, a.extractLsb' 4 4, a.extractLsb' 0 4] :: rest →
      step s = exec (Instr.ior bit0 a) { s with pending := rest, readOpen := false }) ∧
    (readGoesOn s = true → ∃ n, step s = exec (.run n) s)

/-- The word that `withFetchWord` places is the instruction the next step runs, as the state's configuration reads
it, on that state with no line of the host open; the host's reading of a word is the one with the default codes. A
word of one byte is read as a STATE word, with the sampled nibble zero, which is the model's choice (log 2, log 3,
log 22). -/
def Obligations.PlacedTableWordRunsNext : Prop :=
  (∀ (s : State) (w : Nat) (i : Instr),
    (decodeWord s.codes .iow w = some i → step (s.withFetchWord 32 w) = exec i { s with readOpen := false }) ∧
    (decodeWord s.codes .ior w = some i → step (s.withFetchWord 24 w) = exec i { s with readOpen := false }) ∧
    (decodeWord s.codes .state w = some i →
      step (s.withFetchWord 8 w) =
        exec i { s with
          strobePrev := .inactive, cycleState := CycleState.ofOrdinal (BitVec.ofNat 4 w), readOpen := false })) ∧
  (∀ w : Nat,
    decodeTableWord 32 w = decodeWord {} .iow w ∧ decodeTableWord 24 w = decodeWord {} .ior w ∧
    decodeTableWord 8 w = decodeWord {} .state w)

/-- R8, R140: no instruction faults or is refused, whatever the state; and none touches what the outside does next
or the configuration. The result of SUBMIT with 256 bytes is a free constant (log 7). -/
def Obligations.EveryInstructionCompletes : Prop :=
  ∀ (i : Instr) (s : State), ∃ t,
    exec i s = .next t ∧ t.pending = s.pending ∧ t.drawn = s.drawn ∧ t.codes = s.codes

/-! ## The frame events -/

/-- R82: FALL goes to Idle, gives the lines back and writes nothing else, whatever the state was; the sampled
nibble is discarded. -/
def Obligations.FallResetsTheMachine : Prop :=
  ∀ (n : Nibble) (s : State),
    exec (.fall n) s = .next { s with strobePrev := .active, cycleState := .idle, ladDir := .host }

/-- R83: HOLD latches the nibble and writes nothing else. -/
def Obligations.HoldLatchesTheFrameCode : Prop :=
  ∀ (n : Nibble) (s : State), exec (.hold n) s = .next { s with strobePrev := .active, frameInfo := n }

/-- R84: RISE selects the state by the latched code and runs that state's action in the same edge, with the nibble of
this edge. -/
def Obligations.RiseSelectsAndActs : Prop :=
  ∀ (n : Nibble) (s : State),
    (s.frameInfo = s.codes.frameStart →
      exec (.rise n) s = exec (.stCycTypeAndDir n) { s with strobePrev := .inactive, cycleState := .cycTypeAndDir }) ∧
    (s.frameInfo ≠ s.codes.frameStart → s.frameInfo = s.codes.frameAbort →
      exec (.rise n) s = .next { s with strobePrev := .inactive, cycleState := .abort }) ∧
    (s.frameInfo ≠ s.codes.frameStart → s.frameInfo ≠ s.codes.frameAbort →
      exec (.rise n) s = .next { s with strobePrev := .inactive, cycleState := .idle }) ∧
    (∃ t, exec (.rise n) s = .next t ∧ t.strobePrev = .inactive ∧ t.frameInfo = s.frameInfo)

/-- R85, R90: RUN performs exactly the action of the current state; in Idle and Abort the edge changes nothing. -/
def Obligations.RunPerformsTheActionOfTheState : Prop :=
  ∀ (n : Nibble) (s : State),
    exec (.run n) s = exec (Instr.ofState s.cycleState n) { s with strobePrev := .inactive } ∧
    exec (.run n) s = .next (stateStep n { s with strobePrev := .inactive }) ∧
    (s.strobePrev = .inactive → s.cycleState = .idle ∨ s.cycleState = .abort → exec (.run n) s = .next s)

/-- R87: in a frame of two or more active edges the nibble of the last one decides, whatever came before it; a frame
of one active edge acts on the code already latched, whatever its nibble. The rule is the spec's own inference. -/
def Obligations.TheLastHoldOfAFrameDecides : Prop :=
  ∀ (s : State) (x n : Nibble), s.strobePrev = .inactive →
    (∀ (holds : List Nibble) (c : Nibble),
      runEdges (⟨.active, x⟩ :: (holds.map (Sample.mk .active) ++ [⟨.active, c⟩, ⟨.inactive, n⟩])) s =
        stateStep n { s with
          strobePrev := .inactive, ladDir := .host, frameInfo := c, cycleState := frameTarget s.codes c }) ∧
    runEdges [⟨.active, x⟩, ⟨.inactive, n⟩] s =
      stateStep n { s with strobePrev := .inactive, ladDir := .host, cycleState := frameTarget s.codes s.frameInfo }

/-- R109: an edge whose event is not HOLD and whose acting state is none of the seven that consume the nibble has one
result for every nibble. The rule is the spec's own inference. -/
def Obligations.UnconsumedNibblesDoNotMatter : Prop :=
  ∀ (s : State) (strobe : Strobe) (n m : Nibble),
    (strobe = .active → s.strobePrev = .inactive) →
    (strobe = .inactive → consumes (actingState s) = false) →
    exec (Instr.ofEvent s.strobePrev strobe n) s = exec (Instr.ofEvent s.strobePrev strobe m) s

/-! ## The state actions -/

/-- R91: the CTDIR nibble. Both registers are written even when the cycle is dropped; bit 0 is ignored. -/
def Obligations.CtdirNibbleIsDecoded : Prop :=
  ∀ (n : Nibble) (s : State), s.codes.wf = true →
    (n.extractLsb' 2 2 = s.codes.cycTypeIo → exec (.stCycTypeAndDir n) s = .next { s with
      cycType := .io, direction := if n.getLsbD 1 = s.codes.dirWrite then .write else .read, cycleState := .addr0 }) ∧
    (n.extractLsb' 2 2 = s.codes.cycTypeMemory → exec (.stCycTypeAndDir n) s = .next { s with
      cycType := .memory, cycleState := .idle,
      direction := if n.getLsbD 1 = s.codes.dirWrite then .write else .read }) ∧
    (n.extractLsb' 2 2 = s.codes.cycTypeDma → exec (.stCycTypeAndDir n) s = .next { s with
      cycType := .dma, cycleState := .idle,
      direction := if n.getLsbD 1 = s.codes.dirWrite then .write else .read }) ∧
    (n.extractLsb' 2 2 = s.codes.cycTypeReserved → exec (.stCycTypeAndDir n) s = .next { s with
      cycType := .reserved, cycleState := .idle,
      direction := if n.getLsbD 1 = s.codes.dirWrite then .write else .read })

/-- R92 to R95, R43: each address action shifts the address left by four and ors in the nibble, the direction says
what follows the last, and after the four the address is the four nibbles, most significant first, whatever it
held before. -/
def Obligations.AddressNibblesAreAssembled : Prop :=
  (∀ (n : Nibble) (s : State),
    exec (.stAddr0 n) s = .next { s with
      address := (s.address <<< 4) ||| n.setWidth 16, cycleState := .addr1 } ∧
    exec (.stAddr1 n) s = .next { s with
      address := (s.address <<< 4) ||| n.setWidth 16, cycleState := .addr2 } ∧
    exec (.stAddr2 n) s = .next { s with
      address := (s.address <<< 4) ||| n.setWidth 16, cycleState := .addr3 } ∧
    exec (.stAddr3 n) s = .next { s with
      address := (s.address <<< 4) ||| n.setWidth 16,
      cycleState := if s.direction = .write then .dataWrite0 else .turnToPeripheral0 }) ∧
  (∀ (n1 n2 n3 n4 : Nibble) (s : State),
    runAll [.stAddr0 n1, .stAddr1 n2, .stAddr2 n3, .stAddr3 n4] s = .next { s with
      address := (n1 ++ n2 : BitVec 8) ++ (n3 ++ n4 : BitVec 8),
      cycleState := if s.direction = .write then .dataWrite0 else .turnToPeripheral0 })

/-- R96, R97: the two data actions write the low and then the high nibble; after both the byte is the two nibbles,
whatever it held before. -/
def Obligations.DataNibblesAreAssembled : Prop :=
  (∀ (n : Nibble) (s : State),
    exec (.stDataWrite0 n) s = .next { s with
      data := s.data.extractLsb' 4 4 ++ n, cycleState := .dataWrite1 } ∧
    exec (.stDataWrite1 n) s = .next { s with
      data := n ++ s.data.extractLsb' 0 4, cycleState := .turnToPeripheral0 }) ∧
  (∀ (lo hi : Nibble) (s : State),
    runAll [.stDataWrite0 lo, .stDataWrite1 hi] s = .next { s with
      data := hi ++ lo, cycleState := .turnToPeripheral0 })

/-- R98, R99: the turnaround to the peripheral latches the code of the direction, then turns the lines, and from then
on they show the latch. The latch is log 12. -/
def Obligations.TurnaroundToThePeripheral : Prop :=
  ∀ (n : Nibble) (s : State),
    exec (.stTurnToPeripheral0 n) s = .next { s with
      ladOut := if s.direction = .read then s.codes.syncShortWait else s.codes.syncReady,
      cycleState := .turnToPeripheral1 } ∧
    exec (.stTurnToPeripheral1 n) s = .next { s with ladDir := .peripheral, cycleState := .sync } ∧
    (∀ t, exec (.stTurnToPeripheral1 n) s = .next t → t.ladPins = .driven s.ladOut)

/-- R100 for a read: by ownership and address, one call of the read handler, and either the byte with the ready code
or the wait code and Sync again, with `data` kept. -/
def Obligations.SyncReadsByAddress : Prop :=
  ∀ (n : Nibble) (s : State), s.direction = .read →
    (s.owner = true →
      exec (.stSync n) s = .next { s with ladOut := s.codes.syncShortWait, cycleState := .sync }) ∧
    (0x0103#16 ≤ s.address →
      exec (.stSync n) s = .next { s with ladOut := s.codes.syncShortWait, cycleState := .sync }) ∧
    (s.owner = false → s.address = 0x0100#16 → exec (.stSync n) s = .next { s with
      data := s.length, ladOut := s.codes.syncReady, cycleState := .dataRead0, checksumAcc := 0x00#8 }) ∧
    (s.owner = false → s.address = 0x0101#16 → exec (.stSync n) s = .next { s with
      data := s.checksumAcc, ladOut := s.codes.syncReady, cycleState := .dataRead0 }) ∧
    (s.owner = false → s.address = 0x0102#16 → exec (.stSync n) s = .next { s with
      data := s.ack, ladOut := s.codes.syncReady, cycleState := .dataRead0, checksumAcc := 0x00#8,
      owner := decide (s.ack = 0xA0#8) }) ∧
    (s.owner = false → s.address ≤ 0x00FF#16 → exec (.stSync n) s = .next { s with
      data := s.buf.get s.address.toNat, ladOut := s.codes.syncReady, cycleState := .dataRead0,
      checksumAcc := s.checksumAcc + s.buf.get s.address.toNat })

/-- R100 for a write, with R110: by ownership and address, the ready code and one call of the write handler, whether
or not it accepts. -/
def Obligations.SyncWritesByAddress : Prop :=
  ∀ (n : Nibble) (s : State), s.direction = .write →
    (s.owner = true →
      exec (.stSync n) s = .next { s with ladOut := s.codes.syncReady, cycleState := .turnToHost0 }) ∧
    (0x0103#16 ≤ s.address →
      exec (.stSync n) s = .next { s with ladOut := s.codes.syncReady, cycleState := .turnToHost0 }) ∧
    (s.owner = false → s.address = 0x0100#16 → exec (.stSync n) s = .next { s with
      ladOut := s.codes.syncReady, cycleState := .turnToHost0, ack := 0xAF#8, length := s.data,
      checksumAcc := 0x00#8 }) ∧
    (s.owner = false → s.address = 0x0101#16 → exec (.stSync n) s = .next { s with
      ladOut := s.codes.syncReady, cycleState := .turnToHost0,
      ack := if s.checksumAcc = s.data then 0xA0#8 else 0xAF#8 }) ∧
    (s.owner = false → s.address = 0x0102#16 → exec (.stSync n) s = .next { s with
      ladOut := s.codes.syncReady, cycleState := .turnToHost0, ack := s.data, checksumAcc := 0x00#8 }) ∧
    (s.owner = false → s.address ≤ 0x00FF#16 → exec (.stSync n) s = .next { s with
      ladOut := s.codes.syncReady, cycleState := .turnToHost0, buf := s.buf.put s.address.toNat s.data,
      checksumAcc := s.checksumAcc + s.data })

/-- R101 to R104: a read drives the low and then the high nibble of `data`; then the release pattern, and the
lines go back to the host with the latch kept. With the high nibble the host has the byte the lines showed (R72); where
that byte stands is the model's choice (log 14). -/
def Obligations.ReadDataAndRelease : Prop :=
  ∀ (n : Nibble) (s : State),
    exec (.stDataRead0 n) s = .next { s with ladOut := s.data.extractLsb' 0 4, cycleState := .dataRead1 } ∧
    exec (.stDataRead1 n) s = .next { s with
      ladOut := s.data.extractLsb' 4 4, cycleState := .turnToHost0,
      hostRead := if s.ladDir = .peripheral then some (s.data.extractLsb' 4 4 ++ s.ladOut) else s.hostRead } ∧
    exec (.stTurnToHost0 n) s = .next { s with ladOut := 0b1111#4, cycleState := .turnToHost1 } ∧
    exec (.stTurnToHost1 n) s = .next { s with ladDir := .host, cycleState := .idle } ∧
    (∀ t, exec (.stTurnToHost1 n) s = .next t → t.ladPins = .released)

/-- R105, and for Idle the spec's decision D12 (R106): the actions of Abort and Idle change nothing. -/
def Obligations.AbortAndIdleAreNoOps : Prop :=
  ∀ (n : Nibble) (s : State),
    (s.cycleState = .abort → exec (.stAbort n) s = .next s) ∧
    (s.cycleState = .idle → exec (.stIdle n) s = .next s)

/-! ## Frames and dropped cycles -/

/-- R63, R84: a frame of two active edges with its code on the second, and the RISE edge: start goes on with the
nibble as CTDIR, abort parks the machine, any other code drops the cycle. -/
def Obligations.FrameCodesSelect : Prop :=
  ∀ (n : Nibble) (s : State), s.codes.wf = true →
    exec (.frameStart n) s = exec (.stCycTypeAndDir n) (framed s.codes.frameStart s) ∧
    (∃ t, exec (.frameStart n) s = .next t ∧
      t.cycleState = if n.extractLsb' 2 2 = s.codes.cycTypeIo then .addr0 else .idle) ∧
    exec (.frameAbort n) s = .next { framed s.codes.frameAbort s with cycleState := .abort } ∧
    (∀ code, code ≠ s.codes.frameStart → code ≠ s.codes.frameAbort →
      exec (.frameOther code n) s = .next { framed code s with cycleState := .idle })

/-- R91, R70: a cycle of another type than IO is back in Idle at its first edge; it writes the cycle type and the
direction, and nothing of the transport. -/
def Obligations.OtherCycleTypesAreDropped : Prop :=
  ∀ (d : Direction) (bit0 : Bool) (s : State), s.codes.wf = true →
    exec (.cycMem d bit0) s = .next { framed s.codes.frameStart s with
      cycleState := .idle, cycType := .memory, direction := d } ∧
    exec (.cycDma d bit0) s = .next { framed s.codes.frameStart s with
      cycleState := .idle, cycType := .dma, direction := d } ∧
    exec (.cycRsvd d bit0) s = .next { framed s.codes.frameStart s with
      cycleState := .idle, cycType := .reserved, direction := d }

/-! ## Write cycles -/

/-- R112: a write of Length stores it, sets Ack to fail and clears the accumulator; the buffer is not cleared. -/
def Obligations.WriteOfLength : Prop :=
  ∀ (bit0 : Bool) (v : Byte) (s : State), s.owner = false →
    exec (.iowLength bit0 v) s = .next { afterWrite 0x0100#16 v s with
      ack := 0xAF#8, length := v, checksumAcc := 0x00#8 }

/-- R113: a write of Checksum compares and stores nothing but the verdict. -/
def Obligations.WriteOfChecksum : Prop :=
  ∀ (bit0 : Bool) (v : Byte) (s : State), s.owner = false →
    exec (.iowChecksum bit0 v) s = .next { afterWrite 0x0101#16 v s with
      ack := if s.checksumAcc = v then 0xA0#8 else 0xAF#8 }

/-- R114: a write of Ack stores the byte whole and clears the accumulator; the ownership does not move. -/
def Obligations.WriteOfAck : Prop :=
  ∀ (bit0 : Bool) (v : Byte) (s : State), s.owner = false →
    exec (.iowAck bit0 v) s = .next { afterWrite 0x0102#16 v s with ack := v, checksumAcc := 0x00#8 }

/-- R115: a payload write stores its byte, leaves every other byte, and adds the byte to the accumulator modulo
256; every offset is writable. -/
def Obligations.WriteOfPayload : Prop :=
  ∀ (bit0 : Bool) (offset v : Byte) (s : State), s.owner = false → BufferOk s →
    ∃ t, exec (.iowPayload bit0 offset v) s = .next t ∧
      t = { afterWrite (offset.setWidth 16) v s with buf := t.buf, checksumAcc := s.checksumAcc + v } ∧
      t.checksumAcc.toNat = (s.checksumAcc.toNat + v.toNat) % 256 ∧
      ∀ x : Nat, t.buf.get x = if x = offset.toNat then v else s.buf.get x

/-- R116: a write of any other address is ignored and its cycle completes, whoever owns the buffer; no address
from 0x0103 on aliases another. -/
def Obligations.WriteOfAnyOtherAddress : Prop :=
  ∀ (bit0 : Bool) (a : Addr) (v : Byte) (s : State), 0x0103#16 ≤ a →
    exec (.iowNone bit0 a v) s = .next (afterWrite a v s)

/-- R111: while the application owns the buffer a write of any address completes on the bus and changes nothing of
the transport, the control registers included. -/
def Obligations.WritesAreDroppedWhileTheApplicationOwns : Prop :=
  ∀ (bit0 : Bool) (a : Addr) (v : Byte) (s : State), s.owner = true →
    exec (Instr.iow bit0 a v) s = .next (afterWrite a v s)

/-- R88: a stream of one frame (any first sample, any held codes before the last, the start code last), the write
CTDIR nibble, the address and data nibbles and five edges with any nibble ends at rest, with the write handler's
effect of exactly this address and byte, once, and nothing else of the transport changed. The rule is the spec's own
inference. -/
def Obligations.DecoderIntegration : Prop :=
  ∀ (s : State) (x : Nibble) (holds : List Nibble) (bit0 : Bool) (a : Addr) (v : Byte) (y0 y1 y2 y3 y4 : Nibble),
    s.strobePrev = .inactive →
    runEdges
      (⟨.active, x⟩ :: (holds.map (Sample.mk .active) ++
        ⟨.active, s.codes.frameStart⟩ ::
        ⟨.inactive, s.codes.cycTypeIo ++ (BitVec.ofBool s.codes.dirWrite ++ BitVec.ofBool bit0 : BitVec 2)⟩ ::
        ([a.extractLsb' 12 4, a.extractLsb' 8 4, a.extractLsb' 4 4, a.extractLsb' 0 4,
          v.extractLsb' 0 4, v.extractLsb' 4 4, y0, y1, y2, y3, y4].map (Sample.mk .inactive)))) s =
      transportWrite a v (afterWrite a v s) ∧
    Quiescent (transportWrite a v (afterWrite a v s))

/-! ## Read cycles -/

/-- R122: a read of Length yields it and clears the accumulator; Ack is kept. -/
def Obligations.ReadOfLength : Prop :=
  ∀ (bit0 : Bool) (s : State), s.owner = false →
    exec (.iorLength bit0) s = .next { afterRead 0x0100#16 s.length s with checksumAcc := 0x00#8 }

/-- R123: a read of Checksum yields the accumulator and has no side effect on the transport. -/
def Obligations.ReadOfChecksum : Prop :=
  ∀ (bit0 : Bool) (s : State), s.owner = false →
    exec (.iorChecksum bit0) s = .next (afterRead 0x0101#16 s.checksumAcc s)

/-- R124: a read of Ack yields it, clears the accumulator, keeps Ack, and hands the buffer over exactly when Ack is
the pass byte. -/
def Obligations.ReadOfAck : Prop :=
  ∀ (bit0 : Bool) (s : State), s.owner = false →
    exec (.iorAck bit0) s = .next { afterRead 0x0102#16 s.ack s with
      checksumAcc := 0x00#8, owner := decide (s.ack = 0xA0#8) }

/-- R125: a payload read yields its byte, adds it to the accumulator modulo 256 and leaves the buffer. -/
def Obligations.ReadOfPayload : Prop :=
  ∀ (bit0 : Bool) (offset : Byte) (s : State), s.owner = false →
    exec (.iorPayload bit0 offset) s = .next { afterRead (offset.setWidth 16) (s.buf.get offset.toNat) s with
      checksumAcc := s.checksumAcc + s.buf.get offset.toNat }

/-- R126: a read of any other address waits in Sync, whoever owns the buffer, and fails again at every later edge.
That the row ends with the cycle still waiting is the model's choice (log 5). -/
def Obligations.ReadOfAnyOtherAddress : Prop :=
  ∀ (bit0 : Bool) (a : Addr) (s : State), 0x0103#16 ≤ a →
    exec (.iorNone bit0 a) s = .next (heldInSync a s) ∧
    ∀ n, exec (.run n) (heldInSync a s) = .next (heldInSync a s)

/-- R121: while the application owns the buffer a read of any address waits in Sync and changes nothing of the
transport. That the row ends with the cycle still waiting is the model's choice (log 5). -/
def Obligations.ReadsWaitWhileTheApplicationOwns : Prop :=
  ∀ (bit0 : Bool) (a : Addr) (s : State), s.owner = true →
    exec (Instr.ior bit0 a) s = .next (heldInSync a s)

/-- R62, R26: what the lines show after each of the fourteen edges of a write, of a read that succeeds, and of a read
that waits; the host takes the byte off them. The tables of R62 are the spec's own inference; the latch is log 12. -/
def Obligations.WhatTheBusShows : Prop :=
  ∀ (bit0 : Bool) (a : Addr) (v : Byte) (s : State), s.strobePrev = .inactive →
    pinsTrace (writeEdges s.codes bit0 a v) s =
      List.replicate 10 .released ++
        [.driven s.codes.syncReady, .driven s.codes.syncReady, .driven 0xF#4, .released] ∧
    (s.owner = false → a < 0x0103#16 →
      ∃ b t, exec (Instr.ior bit0 a) s = .next t ∧ t.data = b ∧ t.hostRead = some b ∧
        pinsTrace (readEdges s.codes bit0 a) s = List.replicate 8 .released ++
          [.driven s.codes.syncShortWait, .driven s.codes.syncReady, .driven (b.extractLsb' 0 4),
            .driven (b.extractLsb' 4 4), .driven 0xF#4, .released]) ∧
    (s.owner = true ∨ 0x0103#16 ≤ a →
      pinsTrace (readEdges s.codes bit0 a) s =
        List.replicate 8 .released ++ List.replicate 6 (.driven s.codes.syncShortWait))

/-! ## The application -/

/-- R130, R131: Peek writes no register; it returns the buffer and the length while the application owns the
buffer, else not-available. That the copy is of the whole buffer is the spec's decision D20; where the result stands
is the model's choice (log 14). -/
def Obligations.PeekReturnsTheMessage : Prop :=
  ∀ s : State,
    (s.owner = true → exec .peek s = .next { s with reply := .available s.buf s.length }) ∧
    (s.owner = false → exec .peek s = .next { s with reply := .notAvailable })

/-- R132: an accepted Submit writes the payload at offsets 0 to n - 1 and leaves the other bytes, writes the
length, gives the ownership back, and keeps Ack and the accumulator (the spec's decision D19). -/
def Obligations.SubmitHandsTheReplyOver : Prop :=
  ∀ (m : List Byte) (s : State), s.owner = true → BufferOk s → m.length ≤ 255 →
    ∃ t, exec (.submit m) s = .next t ∧
      t = { s with buf := t.buf, length := BitVec.ofNat 8 m.length, owner := false, reply := .ok } ∧
      t.length.toNat = m.length ∧
      ∀ x : Nat, t.buf.get x = (m[x]?).getD (s.buf.get x)

/-- R133, and for more than 256 bytes the spec's decision D18 (R134): Submit fails and changes nothing. -/
def Obligations.SubmitFails : Prop :=
  ∀ (m : List Byte) (s : State), s.owner = false ∨ 256 < m.length →
    exec (.submit m) s = .next { s with reply := .failed }

/-- R134 for exactly 256 bytes, which the spec leaves open between two results: Submit runs, with one of the two.
Which one is a free constant of the model (log 7); the statement holds for either. -/
def Obligations.SubmitOfTheWholeBuffer : Prop :=
  ∀ (m : List Byte) (s : State), s.owner = true → BufferOk s → m.length = 256 →
    exec (.submit m) s = .next { s with reply := .failed } ∨
    ∃ t, exec (.submit m) s = .next t ∧
      t = { s with buf := t.buf, length := 0x00#8, owner := false, reply := .ok } ∧
      ∀ x : Nat, t.buf.get x = (m[x]?).getD (s.buf.get x)

/-- R135, idempotence with exclusivity: while the application owns the buffer, Peek after any run of host edges
returns what it returned before. The rule is the spec's own inference. -/
def Obligations.PeeksAreRepeatable : Prop :=
  ∀ (s : State) (l : List Sample), s.owner = true →
    ∃ t u, exec .peek s = .next t ∧ exec .peek (runEdges l t) = .next u ∧ u.reply = t.reply ∧
      t.reply = .available s.buf s.length

/-! ## Ownership and the lines -/

/-- R28 (c), one side, and R111, R121: while the application owns the buffer no run of host edges changes the
transport's registers, the buffer or the ownership. The rule is the spec's own inference. -/
def Obligations.TheHostCannotTouchWhatTheApplicationOwns : Prop :=
  ∀ (l : List Sample) (s : State), s.owner = true →
    (runEdges l s).owner = true ∧ (runEdges l s).buf = s.buf ∧ (runEdges l s).length = s.length ∧
    (runEdges l s).checksumAcc = s.checksumAcc ∧ (runEdges l s).ack = s.ack

/-- R27: an edge gives the buffer to the application only in the Sync action of a read of Ack that holds the pass
byte, and never takes it back; a Submit gives it back exactly when it is accepted. -/
def Obligations.OwnershipMovesOnlyAtTheTwoHandoffs : Prop :=
  (∀ (s t : State) (strobe : Strobe) (n : Nibble),
    exec (Instr.ofEvent s.strobePrev strobe n) s = .next t → t.owner ≠ s.owner →
    t.owner = true ∧ s.strobePrev = .inactive ∧ strobe = .inactive ∧ s.cycleState = .sync ∧
      s.direction = .read ∧ s.address = 0x0102#16 ∧ s.ack = 0xA0#8 ∧ t.checksumAcc = 0x00#8) ∧
  (∀ (m : List Byte) (s t : State), exec (.submit m) s = .next t →
    (t.owner ≠ s.owner ↔ s.owner = true ∧ t.owner = false ∧ t.reply = .ok))

/-- R18, R19, R107: an edge turns the lines only in the three rules that do, and drives the latch only in the five
actions that do, with the ready code, the wait code, a nibble of `data` or the release pattern. R18 and R107 rest on
the spec's decisions D11 and D9. -/
def Obligations.TheLinesAreDrivenByTheirRulesOnly : Prop :=
  ∀ (s t : State) (strobe : Strobe) (n : Nibble),
    exec (Instr.ofEvent s.strobePrev strobe n) s = .next t →
    (t.ladDir = s.ladDir ∨
      (t.ladDir = .host ∧ s.strobePrev = .inactive ∧ strobe = .active) ∨
      (s.strobePrev = .inactive ∧ strobe = .inactive ∧
        ((t.ladDir = .peripheral ∧ s.cycleState = .turnToPeripheral1) ∨
          (t.ladDir = .host ∧ s.cycleState = .turnToHost1)))) ∧
    (t.ladOut = s.ladOut ∨
      (s.strobePrev = .inactive ∧ strobe = .inactive ∧
        ((s.cycleState = .turnToPeripheral0 ∧ s.direction = .read ∧ t.ladOut = s.codes.syncShortWait) ∨
          (s.cycleState = .turnToPeripheral0 ∧ s.direction = .write ∧ t.ladOut = s.codes.syncReady) ∨
          (s.cycleState = .sync ∧
            (t.ladOut = s.codes.syncReady ∨ s.direction = .read ∧ t.ladOut = s.codes.syncShortWait)) ∨
          (s.cycleState = .dataRead0 ∧ t.ladOut = s.data.extractLsb' 0 4) ∨
          (s.cycleState = .dataRead1 ∧ t.ladOut = s.data.extractLsb' 4 4) ∨
          (s.cycleState = .turnToHost0 ∧ t.ladOut = 0b1111#4))))

/-! ## Passes, hazards and recovery -/

/-- A payload byte written by the host is read back, and every other offset reads as before (R115, R125). -/
def Obligations.PayloadReadsBackWhatWasWritten : Prop :=
  ∀ (bit0 : Bool) (o v o' : Byte) (s : State), s.owner = false → BufferOk s →
    ∃ t u, exec (.iowPayload bit0 o v) s = .next t ∧ exec (.iorPayload bit0 o') t = .next u ∧
      u.hostRead = some (if o' = o then v else s.buf.get o'.toNat)

/-- R117, the write pass: after a write of Length and payload writes at any offsets in any order, the accumulator is
the sum of the bytes modulo 256, and a write of Checksum passes exactly when it equals that sum. The rule is the
spec's own inference. -/
def Obligations.WritePassChecksum : Prop :=
  ∀ (bit0 : Bool) (n c : Byte) (l : List (Byte × Byte)) (s : State), s.owner = false →
    ∃ t, runAll ([.iowLength bit0 n] ++ l.map (fun p => .iowPayload bit0 p.1 p.2) ++ [.iowChecksum bit0 c]) s =
        .next t ∧
      t.checksumAcc.toNat = sumMod256 (l.map Prod.snd) ∧
      t.ack = (if c.toNat = sumMod256 (l.map Prod.snd) then 0xA0#8 else 0xAF#8) ∧
      t.length = n ∧ t.owner = false

/-- R127, the read pass: after a read of Length and payload reads of any offsets in any order, a read of Checksum
yields the sum of the bytes read modulo 256. The rule is the spec's own inference. -/
def Obligations.ReadPassChecksum : Prop :=
  ∀ (bit0 : Bool) (l : List Byte) (s : State), s.owner = false →
    ∃ t c, runAll ([.iorLength bit0] ++ l.map (.iorPayload bit0) ++ [.iorChecksum bit0]) s = .next t ∧
      t.hostRead = some c ∧ c.toNat = sumMod256 (l.map (fun o => s.buf.get o.toNat)) ∧
      t.buf = s.buf ∧ t.owner = false

/-- R135, the round trip, with the reads in the order of spec/90_conflicts.md C4: after a Submit of a message the host
reads its length, its bytes in any order, its sum modulo 256 and the pass byte. The rule is the spec's own inference.
-/
def Obligations.SubmittedMessagesRoundTrip : Prop :=
  ∀ (bit0 : Bool) (m : List Byte) (offsets : List Byte) (s : State),
    s.owner = true → HandoffOk s → BufferOk s → m.length ≤ 255 →
    (offsets.map BitVec.toNat).Perm (List.range m.length) →
    ∃ t0 t1 t2 t3 t4 c,
      exec (.submit m) s = .next t0 ∧
      exec (.iorLength bit0) t0 = .next t1 ∧ t1.hostRead = some (BitVec.ofNat 8 m.length) ∧
      runAll (offsets.map (.iorPayload bit0)) t1 = .next t2 ∧
      (∀ before o after, offsets = before ++ o :: after →
        ∃ u, runAll ((before ++ [o]).map (.iorPayload bit0)) t1 = .next u ∧ u.hostRead = m[o.toNat]?) ∧
      exec (.iorChecksum bit0) t2 = .next t3 ∧ t3.hostRead = some c ∧ c.toNat = sumMod256 m ∧
      exec (.iorAck bit0) t3 = .next t4 ∧ t4.hostRead = some 0xA0#8 ∧ t4.owner = true

/-- R49, R175: a read held in Sync, because the application owns the buffer or the address is unmapped, changes
nothing at any number of further edges, whatever the nibbles. The rule is the spec's own inference. -/
def Obligations.AWaitingReadChangesNothing : Prop :=
  ∀ (l : List Nibble) (s : State),
    s.cycleState = .sync → s.direction = .read → s.strobePrev = .inactive → s.ladOut = s.codes.syncShortWait →
    s.owner = true ∨ 0x0103#16 ≤ s.address →
    runEdges (l.map (Sample.mk .inactive)) s = s

/-- R53, R121: a read of Length held in Sync because the application owns the buffer proceeds at the first edge
after a successful Submit, with the length submitted. And R72: when a line IOR of any mapped address waits so, the
Submit and the five edges that follow end the line in Idle, with one successful call of the read handler and its byte
for the host, and what the outside does next still to come. That the line goes before that is the model's choice
(log 5). -/
def Obligations.SubmitReleasesAWaitingRead : Prop :=
  (∀ (m : List Byte) (n : Nibble) (s : State),
    s.cycleState = .sync → s.direction = .read → s.strobePrev = .inactive → s.owner = true →
    s.address = 0x0100#16 → m.length ≤ 255 →
    ∃ t, exec (.submit m) s = .next t ∧
      exec (.run n) t = .next { t with
        data := BitVec.ofNat 8 m.length, ladOut := s.codes.syncReady, cycleState := .dataRead0,
        checksumAcc := 0x00#8 }) ∧
  (∀ (m : List Byte) (rest : List Stimulus) (s : State),
    s.readOpen = true → s.cycleState = .sync → s.direction = .read → s.strobePrev = .inactive →
    s.ladDir = .peripheral → s.owner = true → s.address < 0x0103#16 → m.length ≤ 255 →
    s.pending = .act (.submit m) :: rest →
    ∃ u v b, exec (.submit m) { s with pending := rest } = .next u ∧ transportRead s.address u = (some b, v) ∧
      (s.address = 0x0100#16 → b = BitVec.ofNat 8 m.length) ∧
      stepMany 6 s = .next { v with
        cycleState := .idle, data := b, ladOut := 0xF#4, ladDir := .host, hostRead := some b } ∧
      v.pending = rest ∧ v.drawn = s.drawn)

/-- R177: Ack stays pass across an outbound message, so a read of Ack after a Submit hands the buffer over again. The
rule is the spec's own inference. -/
def Obligations.AckStaysPassAcrossASubmit : Prop :=
  ∀ (bit0 : Bool) (m : List Byte) (s : State), s.owner = true → HandoffOk s → m.length ≤ 255 →
    ∃ t u, exec (.submit m) s = .next t ∧ exec (.iorAck bit0) t = .next u ∧
      u.hostRead = some 0xA0#8 ∧ u.owner = true ∧ u.buf = t.buf ∧ u.length = t.length

/-! ## Initialisation -/

/-- R161: the values initialisation gives, for every launch; what the spec leaves unspecified is the launch's. That
the reset state is the launch with the values of log 8, log 9, log 10 and log 11 is the model's choice. The values
themselves are the spec's decision D21. -/
def Obligations.InitialValues : Prop :=
  ∀ l : Launch,
    (State.initial l).cycleState = .idle ∧ (State.initial l).ladDir = .host ∧ (State.initial l).length = 0x00#8 ∧
    (State.initial l).checksumAcc = 0x00#8 ∧ (State.initial l).ack = 0xAF#8 ∧ (State.initial l).owner = false ∧
    (State.initial l).strobePrev = l.strobePrev ∧ (State.initial l).frameInfo = l.frameInfo ∧
    (State.initial l).cycType = l.cycType ∧ (State.initial l).direction = l.direction ∧
    (State.initial l).address = l.address ∧ (State.initial l).data = l.data ∧ (State.initial l).ladOut = l.ladOut ∧
    (State.initial l).buf = l.buf ∧ (State.initial l).codes = l.codes ∧ State.reset = State.initial {} ∧
    State.reset.strobePrev = .inactive ∧ State.reset.codes = {}

/-- R163: what the host and the application see after initialisation, for every launch. The rule is the spec's own
inference from its decision D21. -/
def Obligations.WhatIsSeenAfterInitialisation : Prop :=
  ∀ (l : Launch) (bit0 : Bool) (o : Byte) (m : List Byte),
    (∃ t, exec (.iorLength bit0) (State.initial l) = .next t ∧ t.hostRead = some 0x00#8) ∧
    (∃ t, exec (.iorChecksum bit0) (State.initial l) = .next t ∧ t.hostRead = some 0x00#8) ∧
    (∃ t, exec (.iorAck bit0) (State.initial l) = .next t ∧ t.hostRead = some 0xAF#8 ∧ t.owner = false) ∧
    (∃ t, exec (.iorPayload bit0 o) (State.initial l) = .next t ∧ t.hostRead = some (l.buf.get o.toNat)) ∧
    exec .peek (State.initial l) = .next { State.initial l with reply := .notAvailable } ∧
    exec (.submit m) (State.initial l) = .next { State.initial l with reply := .failed }

/-! ## Invariants -/

/-- The invariants hold after every launch whose buffer is in canonical form and whose codes tell apart what they
name, the reset state among them. -/
def Obligations.LaunchedStatesAreSafe : Prop :=
  (∀ l : Launch, l.buf.wf = true → l.codes.wf = true → Safe (State.initial l)) ∧ Safe State.reset

/-- R108 with R98 to R103: every step keeps the decoder's invariant, from every state that has it; and no step writes
the configuration (R4; log 11). The rule is the spec's own inference. -/
def Obligations.StepsKeepTheDecoderInvariant : Prop :=
  (∀ s t : State, DecoderOk s → step s = .next t → DecoderOk t) ∧
  (∀ s t : State, step s = .next t → t.codes = s.codes)

/-- R124 with R111: every step keeps the transport's invariant, from every state that has it: while the application
owns the buffer, Ack is the pass byte and the accumulator is 0. It is inferred from these rules and the spec's
decision D19. -/
def Obligations.StepsKeepTheHandoffInvariant : Prop :=
  ∀ s t : State, HandoffOk s → step s = .next t → HandoffOk t

/-- Every step keeps the buffer's canonical form, from every state that has it (log 9). -/
def Obligations.StepsKeepTheBufferCanonical : Prop :=
  ∀ s t : State, BufferOk s → step s = .next t → BufferOk t
end

