-- ==== Sys2Proof/Laws/State.lean ====
section
/-! SUPPORT. One lemma for each field and each register update of Machine/Ops.lean, all true by `rfl`, so that no
proof unfolds a record update. -/

namespace Sys2Proof.Machine

/-! ### `State.goto` -/

@[simp] theorem State.goto_cycleState (s : State) (c : CycleState) : (s.goto c).cycleState = c := rfl
@[simp] theorem State.goto_frameInfo (s : State) (c : CycleState) : (s.goto c).frameInfo = s.frameInfo := rfl
@[simp] theorem State.goto_strobePrev (s : State) (c : CycleState) : (s.goto c).strobePrev = s.strobePrev := rfl
@[simp] theorem State.goto_cycType (s : State) (c : CycleState) : (s.goto c).cycType = s.cycType := rfl
@[simp] theorem State.goto_direction (s : State) (c : CycleState) : (s.goto c).direction = s.direction := rfl
@[simp] theorem State.goto_address (s : State) (c : CycleState) : (s.goto c).address = s.address := rfl
@[simp] theorem State.goto_data (s : State) (c : CycleState) : (s.goto c).data = s.data := rfl
@[simp] theorem State.goto_ladOut (s : State) (c : CycleState) : (s.goto c).ladOut = s.ladOut := rfl
@[simp] theorem State.goto_ladDir (s : State) (c : CycleState) : (s.goto c).ladDir = s.ladDir := rfl
@[simp] theorem State.goto_buf (s : State) (c : CycleState) : (s.goto c).buf = s.buf := rfl
@[simp] theorem State.goto_length (s : State) (c : CycleState) : (s.goto c).length = s.length := rfl
@[simp] theorem State.goto_checksumAcc (s : State) (c : CycleState) : (s.goto c).checksumAcc = s.checksumAcc := rfl
@[simp] theorem State.goto_ack (s : State) (c : CycleState) : (s.goto c).ack = s.ack := rfl
@[simp] theorem State.goto_owner (s : State) (c : CycleState) : (s.goto c).owner = s.owner := rfl
@[simp] theorem State.goto_pending (s : State) (c : CycleState) : (s.goto c).pending = s.pending := rfl
@[simp] theorem State.goto_drawn (s : State) (c : CycleState) : (s.goto c).drawn = s.drawn := rfl
@[simp] theorem State.goto_reply (s : State) (c : CycleState) : (s.goto c).reply = s.reply := rfl
@[simp] theorem State.goto_hostRead (s : State) (c : CycleState) : (s.goto c).hostRead = s.hostRead := rfl
@[simp] theorem State.goto_readOpen (s : State) (c : CycleState) : (s.goto c).readOpen = s.readOpen := rfl
@[simp] theorem State.goto_codes (s : State) (c : CycleState) : (s.goto c).codes = s.codes := rfl

/-! ### `State.setFrameInfo` -/

@[simp] theorem State.setFrameInfo_cycleState (s : State) (n : Nibble) : (s.setFrameInfo n).cycleState = s.cycleState := rfl
@[simp] theorem State.setFrameInfo_frameInfo (s : State) (n : Nibble) : (s.setFrameInfo n).frameInfo = n := rfl
@[simp] theorem State.setFrameInfo_strobePrev (s : State) (n : Nibble) : (s.setFrameInfo n).strobePrev = s.strobePrev := rfl
@[simp] theorem State.setFrameInfo_cycType (s : State) (n : Nibble) : (s.setFrameInfo n).cycType = s.cycType := rfl
@[simp] theorem State.setFrameInfo_direction (s : State) (n : Nibble) : (s.setFrameInfo n).direction = s.direction := rfl
@[simp] theorem State.setFrameInfo_address (s : State) (n : Nibble) : (s.setFrameInfo n).address = s.address := rfl
@[simp] theorem State.setFrameInfo_data (s : State) (n : Nibble) : (s.setFrameInfo n).data = s.data := rfl
@[simp] theorem State.setFrameInfo_ladOut (s : State) (n : Nibble) : (s.setFrameInfo n).ladOut = s.ladOut := rfl
@[simp] theorem State.setFrameInfo_ladDir (s : State) (n : Nibble) : (s.setFrameInfo n).ladDir = s.ladDir := rfl
@[simp] theorem State.setFrameInfo_buf (s : State) (n : Nibble) : (s.setFrameInfo n).buf = s.buf := rfl
@[simp] theorem State.setFrameInfo_length (s : State) (n : Nibble) : (s.setFrameInfo n).length = s.length := rfl
@[simp] theorem State.setFrameInfo_checksumAcc (s : State) (n : Nibble) : (s.setFrameInfo n).checksumAcc = s.checksumAcc := rfl
@[simp] theorem State.setFrameInfo_ack (s : State) (n : Nibble) : (s.setFrameInfo n).ack = s.ack := rfl
@[simp] theorem State.setFrameInfo_owner (s : State) (n : Nibble) : (s.setFrameInfo n).owner = s.owner := rfl
@[simp] theorem State.setFrameInfo_pending (s : State) (n : Nibble) : (s.setFrameInfo n).pending = s.pending := rfl
@[simp] theorem State.setFrameInfo_drawn (s : State) (n : Nibble) : (s.setFrameInfo n).drawn = s.drawn := rfl
@[simp] theorem State.setFrameInfo_reply (s : State) (n : Nibble) : (s.setFrameInfo n).reply = s.reply := rfl
@[simp] theorem State.setFrameInfo_hostRead (s : State) (n : Nibble) : (s.setFrameInfo n).hostRead = s.hostRead := rfl
@[simp] theorem State.setFrameInfo_readOpen (s : State) (n : Nibble) : (s.setFrameInfo n).readOpen = s.readOpen := rfl
@[simp] theorem State.setFrameInfo_codes (s : State) (n : Nibble) : (s.setFrameInfo n).codes = s.codes := rfl

/-! ### `State.setStrobePrev` -/

@[simp] theorem State.setStrobePrev_cycleState (s : State) (p : Strobe) : (s.setStrobePrev p).cycleState = s.cycleState := rfl
@[simp] theorem State.setStrobePrev_frameInfo (s : State) (p : Strobe) : (s.setStrobePrev p).frameInfo = s.frameInfo := rfl
@[simp] theorem State.setStrobePrev_strobePrev (s : State) (p : Strobe) : (s.setStrobePrev p).strobePrev = p := rfl
@[simp] theorem State.setStrobePrev_cycType (s : State) (p : Strobe) : (s.setStrobePrev p).cycType = s.cycType := rfl
@[simp] theorem State.setStrobePrev_direction (s : State) (p : Strobe) : (s.setStrobePrev p).direction = s.direction := rfl
@[simp] theorem State.setStrobePrev_address (s : State) (p : Strobe) : (s.setStrobePrev p).address = s.address := rfl
@[simp] theorem State.setStrobePrev_data (s : State) (p : Strobe) : (s.setStrobePrev p).data = s.data := rfl
@[simp] theorem State.setStrobePrev_ladOut (s : State) (p : Strobe) : (s.setStrobePrev p).ladOut = s.ladOut := rfl
@[simp] theorem State.setStrobePrev_ladDir (s : State) (p : Strobe) : (s.setStrobePrev p).ladDir = s.ladDir := rfl
@[simp] theorem State.setStrobePrev_buf (s : State) (p : Strobe) : (s.setStrobePrev p).buf = s.buf := rfl
@[simp] theorem State.setStrobePrev_length (s : State) (p : Strobe) : (s.setStrobePrev p).length = s.length := rfl
@[simp] theorem State.setStrobePrev_checksumAcc (s : State) (p : Strobe) : (s.setStrobePrev p).checksumAcc = s.checksumAcc := rfl
@[simp] theorem State.setStrobePrev_ack (s : State) (p : Strobe) : (s.setStrobePrev p).ack = s.ack := rfl
@[simp] theorem State.setStrobePrev_owner (s : State) (p : Strobe) : (s.setStrobePrev p).owner = s.owner := rfl
@[simp] theorem State.setStrobePrev_pending (s : State) (p : Strobe) : (s.setStrobePrev p).pending = s.pending := rfl
@[simp] theorem State.setStrobePrev_drawn (s : State) (p : Strobe) : (s.setStrobePrev p).drawn = s.drawn := rfl
@[simp] theorem State.setStrobePrev_reply (s : State) (p : Strobe) : (s.setStrobePrev p).reply = s.reply := rfl
@[simp] theorem State.setStrobePrev_hostRead (s : State) (p : Strobe) : (s.setStrobePrev p).hostRead = s.hostRead := rfl
@[simp] theorem State.setStrobePrev_readOpen (s : State) (p : Strobe) : (s.setStrobePrev p).readOpen = s.readOpen := rfl
@[simp] theorem State.setStrobePrev_codes (s : State) (p : Strobe) : (s.setStrobePrev p).codes = s.codes := rfl

/-! ### `State.setCycType` -/

@[simp] theorem State.setCycType_cycleState (s : State) (t : CycleType) : (s.setCycType t).cycleState = s.cycleState := rfl
@[simp] theorem State.setCycType_frameInfo (s : State) (t : CycleType) : (s.setCycType t).frameInfo = s.frameInfo := rfl
@[simp] theorem State.setCycType_strobePrev (s : State) (t : CycleType) : (s.setCycType t).strobePrev = s.strobePrev := rfl
@[simp] theorem State.setCycType_cycType (s : State) (t : CycleType) : (s.setCycType t).cycType = t := rfl
@[simp] theorem State.setCycType_direction (s : State) (t : CycleType) : (s.setCycType t).direction = s.direction := rfl
@[simp] theorem State.setCycType_address (s : State) (t : CycleType) : (s.setCycType t).address = s.address := rfl
@[simp] theorem State.setCycType_data (s : State) (t : CycleType) : (s.setCycType t).data = s.data := rfl
@[simp] theorem State.setCycType_ladOut (s : State) (t : CycleType) : (s.setCycType t).ladOut = s.ladOut := rfl
@[simp] theorem State.setCycType_ladDir (s : State) (t : CycleType) : (s.setCycType t).ladDir = s.ladDir := rfl
@[simp] theorem State.setCycType_buf (s : State) (t : CycleType) : (s.setCycType t).buf = s.buf := rfl
@[simp] theorem State.setCycType_length (s : State) (t : CycleType) : (s.setCycType t).length = s.length := rfl
@[simp] theorem State.setCycType_checksumAcc (s : State) (t : CycleType) : (s.setCycType t).checksumAcc = s.checksumAcc := rfl
@[simp] theorem State.setCycType_ack (s : State) (t : CycleType) : (s.setCycType t).ack = s.ack := rfl
@[simp] theorem State.setCycType_owner (s : State) (t : CycleType) : (s.setCycType t).owner = s.owner := rfl
@[simp] theorem State.setCycType_pending (s : State) (t : CycleType) : (s.setCycType t).pending = s.pending := rfl
@[simp] theorem State.setCycType_drawn (s : State) (t : CycleType) : (s.setCycType t).drawn = s.drawn := rfl
@[simp] theorem State.setCycType_reply (s : State) (t : CycleType) : (s.setCycType t).reply = s.reply := rfl
@[simp] theorem State.setCycType_hostRead (s : State) (t : CycleType) : (s.setCycType t).hostRead = s.hostRead := rfl
@[simp] theorem State.setCycType_readOpen (s : State) (t : CycleType) : (s.setCycType t).readOpen = s.readOpen := rfl
@[simp] theorem State.setCycType_codes (s : State) (t : CycleType) : (s.setCycType t).codes = s.codes := rfl

/-! ### `State.setDirection` -/

@[simp] theorem State.setDirection_cycleState (s : State) (d : Direction) : (s.setDirection d).cycleState = s.cycleState := rfl
@[simp] theorem State.setDirection_frameInfo (s : State) (d : Direction) : (s.setDirection d).frameInfo = s.frameInfo := rfl
@[simp] theorem State.setDirection_strobePrev (s : State) (d : Direction) : (s.setDirection d).strobePrev = s.strobePrev := rfl
@[simp] theorem State.setDirection_cycType (s : State) (d : Direction) : (s.setDirection d).cycType = s.cycType := rfl
@[simp] theorem State.setDirection_direction (s : State) (d : Direction) : (s.setDirection d).direction = d := rfl
@[simp] theorem State.setDirection_address (s : State) (d : Direction) : (s.setDirection d).address = s.address := rfl
@[simp] theorem State.setDirection_data (s : State) (d : Direction) : (s.setDirection d).data = s.data := rfl
@[simp] theorem State.setDirection_ladOut (s : State) (d : Direction) : (s.setDirection d).ladOut = s.ladOut := rfl
@[simp] theorem State.setDirection_ladDir (s : State) (d : Direction) : (s.setDirection d).ladDir = s.ladDir := rfl
@[simp] theorem State.setDirection_buf (s : State) (d : Direction) : (s.setDirection d).buf = s.buf := rfl
@[simp] theorem State.setDirection_length (s : State) (d : Direction) : (s.setDirection d).length = s.length := rfl
@[simp] theorem State.setDirection_checksumAcc (s : State) (d : Direction) : (s.setDirection d).checksumAcc = s.checksumAcc := rfl
@[simp] theorem State.setDirection_ack (s : State) (d : Direction) : (s.setDirection d).ack = s.ack := rfl
@[simp] theorem State.setDirection_owner (s : State) (d : Direction) : (s.setDirection d).owner = s.owner := rfl
@[simp] theorem State.setDirection_pending (s : State) (d : Direction) : (s.setDirection d).pending = s.pending := rfl
@[simp] theorem State.setDirection_drawn (s : State) (d : Direction) : (s.setDirection d).drawn = s.drawn := rfl
@[simp] theorem State.setDirection_reply (s : State) (d : Direction) : (s.setDirection d).reply = s.reply := rfl
@[simp] theorem State.setDirection_hostRead (s : State) (d : Direction) : (s.setDirection d).hostRead = s.hostRead := rfl
@[simp] theorem State.setDirection_readOpen (s : State) (d : Direction) : (s.setDirection d).readOpen = s.readOpen := rfl
@[simp] theorem State.setDirection_codes (s : State) (d : Direction) : (s.setDirection d).codes = s.codes := rfl

/-! ### `State.setAddress` -/

@[simp] theorem State.setAddress_cycleState (s : State) (a : Addr) : (s.setAddress a).cycleState = s.cycleState := rfl
@[simp] theorem State.setAddress_frameInfo (s : State) (a : Addr) : (s.setAddress a).frameInfo = s.frameInfo := rfl
@[simp] theorem State.setAddress_strobePrev (s : State) (a : Addr) : (s.setAddress a).strobePrev = s.strobePrev := rfl
@[simp] theorem State.setAddress_cycType (s : State) (a : Addr) : (s.setAddress a).cycType = s.cycType := rfl
@[simp] theorem State.setAddress_direction (s : State) (a : Addr) : (s.setAddress a).direction = s.direction := rfl
@[simp] theorem State.setAddress_address (s : State) (a : Addr) : (s.setAddress a).address = a := rfl
@[simp] theorem State.setAddress_data (s : State) (a : Addr) : (s.setAddress a).data = s.data := rfl
@[simp] theorem State.setAddress_ladOut (s : State) (a : Addr) : (s.setAddress a).ladOut = s.ladOut := rfl
@[simp] theorem State.setAddress_ladDir (s : State) (a : Addr) : (s.setAddress a).ladDir = s.ladDir := rfl
@[simp] theorem State.setAddress_buf (s : State) (a : Addr) : (s.setAddress a).buf = s.buf := rfl
@[simp] theorem State.setAddress_length (s : State) (a : Addr) : (s.setAddress a).length = s.length := rfl
@[simp] theorem State.setAddress_checksumAcc (s : State) (a : Addr) : (s.setAddress a).checksumAcc = s.checksumAcc := rfl
@[simp] theorem State.setAddress_ack (s : State) (a : Addr) : (s.setAddress a).ack = s.ack := rfl
@[simp] theorem State.setAddress_owner (s : State) (a : Addr) : (s.setAddress a).owner = s.owner := rfl
@[simp] theorem State.setAddress_pending (s : State) (a : Addr) : (s.setAddress a).pending = s.pending := rfl
@[simp] theorem State.setAddress_drawn (s : State) (a : Addr) : (s.setAddress a).drawn = s.drawn := rfl
@[simp] theorem State.setAddress_reply (s : State) (a : Addr) : (s.setAddress a).reply = s.reply := rfl
@[simp] theorem State.setAddress_hostRead (s : State) (a : Addr) : (s.setAddress a).hostRead = s.hostRead := rfl
@[simp] theorem State.setAddress_readOpen (s : State) (a : Addr) : (s.setAddress a).readOpen = s.readOpen := rfl
@[simp] theorem State.setAddress_codes (s : State) (a : Addr) : (s.setAddress a).codes = s.codes := rfl

/-! ### `State.setData` -/

@[simp] theorem State.setData_cycleState (s : State) (b : Byte) : (s.setData b).cycleState = s.cycleState := rfl
@[simp] theorem State.setData_frameInfo (s : State) (b : Byte) : (s.setData b).frameInfo = s.frameInfo := rfl
@[simp] theorem State.setData_strobePrev (s : State) (b : Byte) : (s.setData b).strobePrev = s.strobePrev := rfl
@[simp] theorem State.setData_cycType (s : State) (b : Byte) : (s.setData b).cycType = s.cycType := rfl
@[simp] theorem State.setData_direction (s : State) (b : Byte) : (s.setData b).direction = s.direction := rfl
@[simp] theorem State.setData_address (s : State) (b : Byte) : (s.setData b).address = s.address := rfl
@[simp] theorem State.setData_data (s : State) (b : Byte) : (s.setData b).data = b := rfl
@[simp] theorem State.setData_ladOut (s : State) (b : Byte) : (s.setData b).ladOut = s.ladOut := rfl
@[simp] theorem State.setData_ladDir (s : State) (b : Byte) : (s.setData b).ladDir = s.ladDir := rfl
@[simp] theorem State.setData_buf (s : State) (b : Byte) : (s.setData b).buf = s.buf := rfl
@[simp] theorem State.setData_length (s : State) (b : Byte) : (s.setData b).length = s.length := rfl
@[simp] theorem State.setData_checksumAcc (s : State) (b : Byte) : (s.setData b).checksumAcc = s.checksumAcc := rfl
@[simp] theorem State.setData_ack (s : State) (b : Byte) : (s.setData b).ack = s.ack := rfl
@[simp] theorem State.setData_owner (s : State) (b : Byte) : (s.setData b).owner = s.owner := rfl
@[simp] theorem State.setData_pending (s : State) (b : Byte) : (s.setData b).pending = s.pending := rfl
@[simp] theorem State.setData_drawn (s : State) (b : Byte) : (s.setData b).drawn = s.drawn := rfl
@[simp] theorem State.setData_reply (s : State) (b : Byte) : (s.setData b).reply = s.reply := rfl
@[simp] theorem State.setData_hostRead (s : State) (b : Byte) : (s.setData b).hostRead = s.hostRead := rfl
@[simp] theorem State.setData_readOpen (s : State) (b : Byte) : (s.setData b).readOpen = s.readOpen := rfl
@[simp] theorem State.setData_codes (s : State) (b : Byte) : (s.setData b).codes = s.codes := rfl

/-! ### `State.setLadOut` -/

@[simp] theorem State.setLadOut_cycleState (s : State) (n : Nibble) : (s.setLadOut n).cycleState = s.cycleState := rfl
@[simp] theorem State.setLadOut_frameInfo (s : State) (n : Nibble) : (s.setLadOut n).frameInfo = s.frameInfo := rfl
@[simp] theorem State.setLadOut_strobePrev (s : State) (n : Nibble) : (s.setLadOut n).strobePrev = s.strobePrev := rfl
@[simp] theorem State.setLadOut_cycType (s : State) (n : Nibble) : (s.setLadOut n).cycType = s.cycType := rfl
@[simp] theorem State.setLadOut_direction (s : State) (n : Nibble) : (s.setLadOut n).direction = s.direction := rfl
@[simp] theorem State.setLadOut_address (s : State) (n : Nibble) : (s.setLadOut n).address = s.address := rfl
@[simp] theorem State.setLadOut_data (s : State) (n : Nibble) : (s.setLadOut n).data = s.data := rfl
@[simp] theorem State.setLadOut_ladOut (s : State) (n : Nibble) : (s.setLadOut n).ladOut = n := rfl
@[simp] theorem State.setLadOut_ladDir (s : State) (n : Nibble) : (s.setLadOut n).ladDir = s.ladDir := rfl
@[simp] theorem State.setLadOut_buf (s : State) (n : Nibble) : (s.setLadOut n).buf = s.buf := rfl
@[simp] theorem State.setLadOut_length (s : State) (n : Nibble) : (s.setLadOut n).length = s.length := rfl
@[simp] theorem State.setLadOut_checksumAcc (s : State) (n : Nibble) : (s.setLadOut n).checksumAcc = s.checksumAcc := rfl
@[simp] theorem State.setLadOut_ack (s : State) (n : Nibble) : (s.setLadOut n).ack = s.ack := rfl
@[simp] theorem State.setLadOut_owner (s : State) (n : Nibble) : (s.setLadOut n).owner = s.owner := rfl
@[simp] theorem State.setLadOut_pending (s : State) (n : Nibble) : (s.setLadOut n).pending = s.pending := rfl
@[simp] theorem State.setLadOut_drawn (s : State) (n : Nibble) : (s.setLadOut n).drawn = s.drawn := rfl
@[simp] theorem State.setLadOut_reply (s : State) (n : Nibble) : (s.setLadOut n).reply = s.reply := rfl
@[simp] theorem State.setLadOut_hostRead (s : State) (n : Nibble) : (s.setLadOut n).hostRead = s.hostRead := rfl
@[simp] theorem State.setLadOut_readOpen (s : State) (n : Nibble) : (s.setLadOut n).readOpen = s.readOpen := rfl
@[simp] theorem State.setLadOut_codes (s : State) (n : Nibble) : (s.setLadOut n).codes = s.codes := rfl

/-! ### `State.setLadDir` -/

@[simp] theorem State.setLadDir_cycleState (s : State) (d : LineDir) : (s.setLadDir d).cycleState = s.cycleState := rfl
@[simp] theorem State.setLadDir_frameInfo (s : State) (d : LineDir) : (s.setLadDir d).frameInfo = s.frameInfo := rfl
@[simp] theorem State.setLadDir_strobePrev (s : State) (d : LineDir) : (s.setLadDir d).strobePrev = s.strobePrev := rfl
@[simp] theorem State.setLadDir_cycType (s : State) (d : LineDir) : (s.setLadDir d).cycType = s.cycType := rfl
@[simp] theorem State.setLadDir_direction (s : State) (d : LineDir) : (s.setLadDir d).direction = s.direction := rfl
@[simp] theorem State.setLadDir_address (s : State) (d : LineDir) : (s.setLadDir d).address = s.address := rfl
@[simp] theorem State.setLadDir_data (s : State) (d : LineDir) : (s.setLadDir d).data = s.data := rfl
@[simp] theorem State.setLadDir_ladOut (s : State) (d : LineDir) : (s.setLadDir d).ladOut = s.ladOut := rfl
@[simp] theorem State.setLadDir_ladDir (s : State) (d : LineDir) : (s.setLadDir d).ladDir = d := rfl
@[simp] theorem State.setLadDir_buf (s : State) (d : LineDir) : (s.setLadDir d).buf = s.buf := rfl
@[simp] theorem State.setLadDir_length (s : State) (d : LineDir) : (s.setLadDir d).length = s.length := rfl
@[simp] theorem State.setLadDir_checksumAcc (s : State) (d : LineDir) : (s.setLadDir d).checksumAcc = s.checksumAcc := rfl
@[simp] theorem State.setLadDir_ack (s : State) (d : LineDir) : (s.setLadDir d).ack = s.ack := rfl
@[simp] theorem State.setLadDir_owner (s : State) (d : LineDir) : (s.setLadDir d).owner = s.owner := rfl
@[simp] theorem State.setLadDir_pending (s : State) (d : LineDir) : (s.setLadDir d).pending = s.pending := rfl
@[simp] theorem State.setLadDir_drawn (s : State) (d : LineDir) : (s.setLadDir d).drawn = s.drawn := rfl
@[simp] theorem State.setLadDir_reply (s : State) (d : LineDir) : (s.setLadDir d).reply = s.reply := rfl
@[simp] theorem State.setLadDir_hostRead (s : State) (d : LineDir) : (s.setLadDir d).hostRead = s.hostRead := rfl
@[simp] theorem State.setLadDir_readOpen (s : State) (d : LineDir) : (s.setLadDir d).readOpen = s.readOpen := rfl
@[simp] theorem State.setLadDir_codes (s : State) (d : LineDir) : (s.setLadDir d).codes = s.codes := rfl

/-! ### `State.setBuf` -/

@[simp] theorem State.setBuf_cycleState (s : State) (m : Memory) : (s.setBuf m).cycleState = s.cycleState := rfl
@[simp] theorem State.setBuf_frameInfo (s : State) (m : Memory) : (s.setBuf m).frameInfo = s.frameInfo := rfl
@[simp] theorem State.setBuf_strobePrev (s : State) (m : Memory) : (s.setBuf m).strobePrev = s.strobePrev := rfl
@[simp] theorem State.setBuf_cycType (s : State) (m : Memory) : (s.setBuf m).cycType = s.cycType := rfl
@[simp] theorem State.setBuf_direction (s : State) (m : Memory) : (s.setBuf m).direction = s.direction := rfl
@[simp] theorem State.setBuf_address (s : State) (m : Memory) : (s.setBuf m).address = s.address := rfl
@[simp] theorem State.setBuf_data (s : State) (m : Memory) : (s.setBuf m).data = s.data := rfl
@[simp] theorem State.setBuf_ladOut (s : State) (m : Memory) : (s.setBuf m).ladOut = s.ladOut := rfl
@[simp] theorem State.setBuf_ladDir (s : State) (m : Memory) : (s.setBuf m).ladDir = s.ladDir := rfl
@[simp] theorem State.setBuf_buf (s : State) (m : Memory) : (s.setBuf m).buf = m := rfl
@[simp] theorem State.setBuf_length (s : State) (m : Memory) : (s.setBuf m).length = s.length := rfl
@[simp] theorem State.setBuf_checksumAcc (s : State) (m : Memory) : (s.setBuf m).checksumAcc = s.checksumAcc := rfl
@[simp] theorem State.setBuf_ack (s : State) (m : Memory) : (s.setBuf m).ack = s.ack := rfl
@[simp] theorem State.setBuf_owner (s : State) (m : Memory) : (s.setBuf m).owner = s.owner := rfl
@[simp] theorem State.setBuf_pending (s : State) (m : Memory) : (s.setBuf m).pending = s.pending := rfl
@[simp] theorem State.setBuf_drawn (s : State) (m : Memory) : (s.setBuf m).drawn = s.drawn := rfl
@[simp] theorem State.setBuf_reply (s : State) (m : Memory) : (s.setBuf m).reply = s.reply := rfl
@[simp] theorem State.setBuf_hostRead (s : State) (m : Memory) : (s.setBuf m).hostRead = s.hostRead := rfl
@[simp] theorem State.setBuf_readOpen (s : State) (m : Memory) : (s.setBuf m).readOpen = s.readOpen := rfl
@[simp] theorem State.setBuf_codes (s : State) (m : Memory) : (s.setBuf m).codes = s.codes := rfl

/-! ### `State.setLength` -/

@[simp] theorem State.setLength_cycleState (s : State) (b : Byte) : (s.setLength b).cycleState = s.cycleState := rfl
@[simp] theorem State.setLength_frameInfo (s : State) (b : Byte) : (s.setLength b).frameInfo = s.frameInfo := rfl
@[simp] theorem State.setLength_strobePrev (s : State) (b : Byte) : (s.setLength b).strobePrev = s.strobePrev := rfl
@[simp] theorem State.setLength_cycType (s : State) (b : Byte) : (s.setLength b).cycType = s.cycType := rfl
@[simp] theorem State.setLength_direction (s : State) (b : Byte) : (s.setLength b).direction = s.direction := rfl
@[simp] theorem State.setLength_address (s : State) (b : Byte) : (s.setLength b).address = s.address := rfl
@[simp] theorem State.setLength_data (s : State) (b : Byte) : (s.setLength b).data = s.data := rfl
@[simp] theorem State.setLength_ladOut (s : State) (b : Byte) : (s.setLength b).ladOut = s.ladOut := rfl
@[simp] theorem State.setLength_ladDir (s : State) (b : Byte) : (s.setLength b).ladDir = s.ladDir := rfl
@[simp] theorem State.setLength_buf (s : State) (b : Byte) : (s.setLength b).buf = s.buf := rfl
@[simp] theorem State.setLength_length (s : State) (b : Byte) : (s.setLength b).length = b := rfl
@[simp] theorem State.setLength_checksumAcc (s : State) (b : Byte) : (s.setLength b).checksumAcc = s.checksumAcc := rfl
@[simp] theorem State.setLength_ack (s : State) (b : Byte) : (s.setLength b).ack = s.ack := rfl
@[simp] theorem State.setLength_owner (s : State) (b : Byte) : (s.setLength b).owner = s.owner := rfl
@[simp] theorem State.setLength_pending (s : State) (b : Byte) : (s.setLength b).pending = s.pending := rfl
@[simp] theorem State.setLength_drawn (s : State) (b : Byte) : (s.setLength b).drawn = s.drawn := rfl
@[simp] theorem State.setLength_reply (s : State) (b : Byte) : (s.setLength b).reply = s.reply := rfl
@[simp] theorem State.setLength_hostRead (s : State) (b : Byte) : (s.setLength b).hostRead = s.hostRead := rfl
@[simp] theorem State.setLength_readOpen (s : State) (b : Byte) : (s.setLength b).readOpen = s.readOpen := rfl
@[simp] theorem State.setLength_codes (s : State) (b : Byte) : (s.setLength b).codes = s.codes := rfl

/-! ### `State.setChecksumAcc` -/

@[simp] theorem State.setChecksumAcc_cycleState (s : State) (b : Byte) : (s.setChecksumAcc b).cycleState = s.cycleState := rfl
@[simp] theorem State.setChecksumAcc_frameInfo (s : State) (b : Byte) : (s.setChecksumAcc b).frameInfo = s.frameInfo := rfl
@[simp] theorem State.setChecksumAcc_strobePrev (s : State) (b : Byte) : (s.setChecksumAcc b).strobePrev = s.strobePrev := rfl
@[simp] theorem State.setChecksumAcc_cycType (s : State) (b : Byte) : (s.setChecksumAcc b).cycType = s.cycType := rfl
@[simp] theorem State.setChecksumAcc_direction (s : State) (b : Byte) : (s.setChecksumAcc b).direction = s.direction := rfl
@[simp] theorem State.setChecksumAcc_address (s : State) (b : Byte) : (s.setChecksumAcc b).address = s.address := rfl
@[simp] theorem State.setChecksumAcc_data (s : State) (b : Byte) : (s.setChecksumAcc b).data = s.data := rfl
@[simp] theorem State.setChecksumAcc_ladOut (s : State) (b : Byte) : (s.setChecksumAcc b).ladOut = s.ladOut := rfl
@[simp] theorem State.setChecksumAcc_ladDir (s : State) (b : Byte) : (s.setChecksumAcc b).ladDir = s.ladDir := rfl
@[simp] theorem State.setChecksumAcc_buf (s : State) (b : Byte) : (s.setChecksumAcc b).buf = s.buf := rfl
@[simp] theorem State.setChecksumAcc_length (s : State) (b : Byte) : (s.setChecksumAcc b).length = s.length := rfl
@[simp] theorem State.setChecksumAcc_checksumAcc (s : State) (b : Byte) : (s.setChecksumAcc b).checksumAcc = b := rfl
@[simp] theorem State.setChecksumAcc_ack (s : State) (b : Byte) : (s.setChecksumAcc b).ack = s.ack := rfl
@[simp] theorem State.setChecksumAcc_owner (s : State) (b : Byte) : (s.setChecksumAcc b).owner = s.owner := rfl
@[simp] theorem State.setChecksumAcc_pending (s : State) (b : Byte) : (s.setChecksumAcc b).pending = s.pending := rfl
@[simp] theorem State.setChecksumAcc_drawn (s : State) (b : Byte) : (s.setChecksumAcc b).drawn = s.drawn := rfl
@[simp] theorem State.setChecksumAcc_reply (s : State) (b : Byte) : (s.setChecksumAcc b).reply = s.reply := rfl
@[simp] theorem State.setChecksumAcc_hostRead (s : State) (b : Byte) : (s.setChecksumAcc b).hostRead = s.hostRead := rfl
@[simp] theorem State.setChecksumAcc_readOpen (s : State) (b : Byte) : (s.setChecksumAcc b).readOpen = s.readOpen := rfl
@[simp] theorem State.setChecksumAcc_codes (s : State) (b : Byte) : (s.setChecksumAcc b).codes = s.codes := rfl

/-! ### `State.setAck` -/

@[simp] theorem State.setAck_cycleState (s : State) (b : Byte) : (s.setAck b).cycleState = s.cycleState := rfl
@[simp] theorem State.setAck_frameInfo (s : State) (b : Byte) : (s.setAck b).frameInfo = s.frameInfo := rfl
@[simp] theorem State.setAck_strobePrev (s : State) (b : Byte) : (s.setAck b).strobePrev = s.strobePrev := rfl
@[simp] theorem State.setAck_cycType (s : State) (b : Byte) : (s.setAck b).cycType = s.cycType := rfl
@[simp] theorem State.setAck_direction (s : State) (b : Byte) : (s.setAck b).direction = s.direction := rfl
@[simp] theorem State.setAck_address (s : State) (b : Byte) : (s.setAck b).address = s.address := rfl
@[simp] theorem State.setAck_data (s : State) (b : Byte) : (s.setAck b).data = s.data := rfl
@[simp] theorem State.setAck_ladOut (s : State) (b : Byte) : (s.setAck b).ladOut = s.ladOut := rfl
@[simp] theorem State.setAck_ladDir (s : State) (b : Byte) : (s.setAck b).ladDir = s.ladDir := rfl
@[simp] theorem State.setAck_buf (s : State) (b : Byte) : (s.setAck b).buf = s.buf := rfl
@[simp] theorem State.setAck_length (s : State) (b : Byte) : (s.setAck b).length = s.length := rfl
@[simp] theorem State.setAck_checksumAcc (s : State) (b : Byte) : (s.setAck b).checksumAcc = s.checksumAcc := rfl
@[simp] theorem State.setAck_ack (s : State) (b : Byte) : (s.setAck b).ack = b := rfl
@[simp] theorem State.setAck_owner (s : State) (b : Byte) : (s.setAck b).owner = s.owner := rfl
@[simp] theorem State.setAck_pending (s : State) (b : Byte) : (s.setAck b).pending = s.pending := rfl
@[simp] theorem State.setAck_drawn (s : State) (b : Byte) : (s.setAck b).drawn = s.drawn := rfl
@[simp] theorem State.setAck_reply (s : State) (b : Byte) : (s.setAck b).reply = s.reply := rfl
@[simp] theorem State.setAck_hostRead (s : State) (b : Byte) : (s.setAck b).hostRead = s.hostRead := rfl
@[simp] theorem State.setAck_readOpen (s : State) (b : Byte) : (s.setAck b).readOpen = s.readOpen := rfl
@[simp] theorem State.setAck_codes (s : State) (b : Byte) : (s.setAck b).codes = s.codes := rfl

/-! ### `State.setOwner` -/

@[simp] theorem State.setOwner_cycleState (s : State) (o : Bool) : (s.setOwner o).cycleState = s.cycleState := rfl
@[simp] theorem State.setOwner_frameInfo (s : State) (o : Bool) : (s.setOwner o).frameInfo = s.frameInfo := rfl
@[simp] theorem State.setOwner_strobePrev (s : State) (o : Bool) : (s.setOwner o).strobePrev = s.strobePrev := rfl
@[simp] theorem State.setOwner_cycType (s : State) (o : Bool) : (s.setOwner o).cycType = s.cycType := rfl
@[simp] theorem State.setOwner_direction (s : State) (o : Bool) : (s.setOwner o).direction = s.direction := rfl
@[simp] theorem State.setOwner_address (s : State) (o : Bool) : (s.setOwner o).address = s.address := rfl
@[simp] theorem State.setOwner_data (s : State) (o : Bool) : (s.setOwner o).data = s.data := rfl
@[simp] theorem State.setOwner_ladOut (s : State) (o : Bool) : (s.setOwner o).ladOut = s.ladOut := rfl
@[simp] theorem State.setOwner_ladDir (s : State) (o : Bool) : (s.setOwner o).ladDir = s.ladDir := rfl
@[simp] theorem State.setOwner_buf (s : State) (o : Bool) : (s.setOwner o).buf = s.buf := rfl
@[simp] theorem State.setOwner_length (s : State) (o : Bool) : (s.setOwner o).length = s.length := rfl
@[simp] theorem State.setOwner_checksumAcc (s : State) (o : Bool) : (s.setOwner o).checksumAcc = s.checksumAcc := rfl
@[simp] theorem State.setOwner_ack (s : State) (o : Bool) : (s.setOwner o).ack = s.ack := rfl
@[simp] theorem State.setOwner_owner (s : State) (o : Bool) : (s.setOwner o).owner = o := rfl
@[simp] theorem State.setOwner_pending (s : State) (o : Bool) : (s.setOwner o).pending = s.pending := rfl
@[simp] theorem State.setOwner_drawn (s : State) (o : Bool) : (s.setOwner o).drawn = s.drawn := rfl
@[simp] theorem State.setOwner_reply (s : State) (o : Bool) : (s.setOwner o).reply = s.reply := rfl
@[simp] theorem State.setOwner_hostRead (s : State) (o : Bool) : (s.setOwner o).hostRead = s.hostRead := rfl
@[simp] theorem State.setOwner_readOpen (s : State) (o : Bool) : (s.setOwner o).readOpen = s.readOpen := rfl
@[simp] theorem State.setOwner_codes (s : State) (o : Bool) : (s.setOwner o).codes = s.codes := rfl

/-! ### `State.setPending` -/

@[simp] theorem State.setPending_cycleState (s : State) (l : List Stimulus) : (s.setPending l).cycleState = s.cycleState := rfl
@[simp] theorem State.setPending_frameInfo (s : State) (l : List Stimulus) : (s.setPending l).frameInfo = s.frameInfo := rfl
@[simp] theorem State.setPending_strobePrev (s : State) (l : List Stimulus) : (s.setPending l).strobePrev = s.strobePrev := rfl
@[simp] theorem State.setPending_cycType (s : State) (l : List Stimulus) : (s.setPending l).cycType = s.cycType := rfl
@[simp] theorem State.setPending_direction (s : State) (l : List Stimulus) : (s.setPending l).direction = s.direction := rfl
@[simp] theorem State.setPending_address (s : State) (l : List Stimulus) : (s.setPending l).address = s.address := rfl
@[simp] theorem State.setPending_data (s : State) (l : List Stimulus) : (s.setPending l).data = s.data := rfl
@[simp] theorem State.setPending_ladOut (s : State) (l : List Stimulus) : (s.setPending l).ladOut = s.ladOut := rfl
@[simp] theorem State.setPending_ladDir (s : State) (l : List Stimulus) : (s.setPending l).ladDir = s.ladDir := rfl
@[simp] theorem State.setPending_buf (s : State) (l : List Stimulus) : (s.setPending l).buf = s.buf := rfl
@[simp] theorem State.setPending_length (s : State) (l : List Stimulus) : (s.setPending l).length = s.length := rfl
@[simp] theorem State.setPending_checksumAcc (s : State) (l : List Stimulus) : (s.setPending l).checksumAcc = s.checksumAcc := rfl
@[simp] theorem State.setPending_ack (s : State) (l : List Stimulus) : (s.setPending l).ack = s.ack := rfl
@[simp] theorem State.setPending_owner (s : State) (l : List Stimulus) : (s.setPending l).owner = s.owner := rfl
@[simp] theorem State.setPending_pending (s : State) (l : List Stimulus) : (s.setPending l).pending = l := rfl
@[simp] theorem State.setPending_drawn (s : State) (l : List Stimulus) : (s.setPending l).drawn = s.drawn := rfl
@[simp] theorem State.setPending_reply (s : State) (l : List Stimulus) : (s.setPending l).reply = s.reply := rfl
@[simp] theorem State.setPending_hostRead (s : State) (l : List Stimulus) : (s.setPending l).hostRead = s.hostRead := rfl
@[simp] theorem State.setPending_readOpen (s : State) (l : List Stimulus) : (s.setPending l).readOpen = s.readOpen := rfl
@[simp] theorem State.setPending_codes (s : State) (l : List Stimulus) : (s.setPending l).codes = s.codes := rfl

/-! ### `State.setDrawn` -/

@[simp] theorem State.setDrawn_cycleState (s : State) (k : Nat) : (s.setDrawn k).cycleState = s.cycleState := rfl
@[simp] theorem State.setDrawn_frameInfo (s : State) (k : Nat) : (s.setDrawn k).frameInfo = s.frameInfo := rfl
@[simp] theorem State.setDrawn_strobePrev (s : State) (k : Nat) : (s.setDrawn k).strobePrev = s.strobePrev := rfl
@[simp] theorem State.setDrawn_cycType (s : State) (k : Nat) : (s.setDrawn k).cycType = s.cycType := rfl
@[simp] theorem State.setDrawn_direction (s : State) (k : Nat) : (s.setDrawn k).direction = s.direction := rfl
@[simp] theorem State.setDrawn_address (s : State) (k : Nat) : (s.setDrawn k).address = s.address := rfl
@[simp] theorem State.setDrawn_data (s : State) (k : Nat) : (s.setDrawn k).data = s.data := rfl
@[simp] theorem State.setDrawn_ladOut (s : State) (k : Nat) : (s.setDrawn k).ladOut = s.ladOut := rfl
@[simp] theorem State.setDrawn_ladDir (s : State) (k : Nat) : (s.setDrawn k).ladDir = s.ladDir := rfl
@[simp] theorem State.setDrawn_buf (s : State) (k : Nat) : (s.setDrawn k).buf = s.buf := rfl
@[simp] theorem State.setDrawn_length (s : State) (k : Nat) : (s.setDrawn k).length = s.length := rfl
@[simp] theorem State.setDrawn_checksumAcc (s : State) (k : Nat) : (s.setDrawn k).checksumAcc = s.checksumAcc := rfl
@[simp] theorem State.setDrawn_ack (s : State) (k : Nat) : (s.setDrawn k).ack = s.ack := rfl
@[simp] theorem State.setDrawn_owner (s : State) (k : Nat) : (s.setDrawn k).owner = s.owner := rfl
@[simp] theorem State.setDrawn_pending (s : State) (k : Nat) : (s.setDrawn k).pending = s.pending := rfl
@[simp] theorem State.setDrawn_drawn (s : State) (k : Nat) : (s.setDrawn k).drawn = k := rfl
@[simp] theorem State.setDrawn_reply (s : State) (k : Nat) : (s.setDrawn k).reply = s.reply := rfl
@[simp] theorem State.setDrawn_hostRead (s : State) (k : Nat) : (s.setDrawn k).hostRead = s.hostRead := rfl
@[simp] theorem State.setDrawn_readOpen (s : State) (k : Nat) : (s.setDrawn k).readOpen = s.readOpen := rfl
@[simp] theorem State.setDrawn_codes (s : State) (k : Nat) : (s.setDrawn k).codes = s.codes := rfl

/-! ### `State.setReply` -/

@[simp] theorem State.setReply_cycleState (s : State) (r : AppReply) : (s.setReply r).cycleState = s.cycleState := rfl
@[simp] theorem State.setReply_frameInfo (s : State) (r : AppReply) : (s.setReply r).frameInfo = s.frameInfo := rfl
@[simp] theorem State.setReply_strobePrev (s : State) (r : AppReply) : (s.setReply r).strobePrev = s.strobePrev := rfl
@[simp] theorem State.setReply_cycType (s : State) (r : AppReply) : (s.setReply r).cycType = s.cycType := rfl
@[simp] theorem State.setReply_direction (s : State) (r : AppReply) : (s.setReply r).direction = s.direction := rfl
@[simp] theorem State.setReply_address (s : State) (r : AppReply) : (s.setReply r).address = s.address := rfl
@[simp] theorem State.setReply_data (s : State) (r : AppReply) : (s.setReply r).data = s.data := rfl
@[simp] theorem State.setReply_ladOut (s : State) (r : AppReply) : (s.setReply r).ladOut = s.ladOut := rfl
@[simp] theorem State.setReply_ladDir (s : State) (r : AppReply) : (s.setReply r).ladDir = s.ladDir := rfl
@[simp] theorem State.setReply_buf (s : State) (r : AppReply) : (s.setReply r).buf = s.buf := rfl
@[simp] theorem State.setReply_length (s : State) (r : AppReply) : (s.setReply r).length = s.length := rfl
@[simp] theorem State.setReply_checksumAcc (s : State) (r : AppReply) : (s.setReply r).checksumAcc = s.checksumAcc := rfl
@[simp] theorem State.setReply_ack (s : State) (r : AppReply) : (s.setReply r).ack = s.ack := rfl
@[simp] theorem State.setReply_owner (s : State) (r : AppReply) : (s.setReply r).owner = s.owner := rfl
@[simp] theorem State.setReply_pending (s : State) (r : AppReply) : (s.setReply r).pending = s.pending := rfl
@[simp] theorem State.setReply_drawn (s : State) (r : AppReply) : (s.setReply r).drawn = s.drawn := rfl
@[simp] theorem State.setReply_reply (s : State) (r : AppReply) : (s.setReply r).reply = r := rfl
@[simp] theorem State.setReply_hostRead (s : State) (r : AppReply) : (s.setReply r).hostRead = s.hostRead := rfl
@[simp] theorem State.setReply_readOpen (s : State) (r : AppReply) : (s.setReply r).readOpen = s.readOpen := rfl
@[simp] theorem State.setReply_codes (s : State) (r : AppReply) : (s.setReply r).codes = s.codes := rfl

/-! ### `State.setHostRead` -/

@[simp] theorem State.setHostRead_cycleState (s : State) (o : Option Byte) : (s.setHostRead o).cycleState = s.cycleState := rfl
@[simp] theorem State.setHostRead_frameInfo (s : State) (o : Option Byte) : (s.setHostRead o).frameInfo = s.frameInfo := rfl
@[simp] theorem State.setHostRead_strobePrev (s : State) (o : Option Byte) : (s.setHostRead o).strobePrev = s.strobePrev := rfl
@[simp] theorem State.setHostRead_cycType (s : State) (o : Option Byte) : (s.setHostRead o).cycType = s.cycType := rfl
@[simp] theorem State.setHostRead_direction (s : State) (o : Option Byte) : (s.setHostRead o).direction = s.direction := rfl
@[simp] theorem State.setHostRead_address (s : State) (o : Option Byte) : (s.setHostRead o).address = s.address := rfl
@[simp] theorem State.setHostRead_data (s : State) (o : Option Byte) : (s.setHostRead o).data = s.data := rfl
@[simp] theorem State.setHostRead_ladOut (s : State) (o : Option Byte) : (s.setHostRead o).ladOut = s.ladOut := rfl
@[simp] theorem State.setHostRead_ladDir (s : State) (o : Option Byte) : (s.setHostRead o).ladDir = s.ladDir := rfl
@[simp] theorem State.setHostRead_buf (s : State) (o : Option Byte) : (s.setHostRead o).buf = s.buf := rfl
@[simp] theorem State.setHostRead_length (s : State) (o : Option Byte) : (s.setHostRead o).length = s.length := rfl
@[simp] theorem State.setHostRead_checksumAcc (s : State) (o : Option Byte) : (s.setHostRead o).checksumAcc = s.checksumAcc := rfl
@[simp] theorem State.setHostRead_ack (s : State) (o : Option Byte) : (s.setHostRead o).ack = s.ack := rfl
@[simp] theorem State.setHostRead_owner (s : State) (o : Option Byte) : (s.setHostRead o).owner = s.owner := rfl
@[simp] theorem State.setHostRead_pending (s : State) (o : Option Byte) : (s.setHostRead o).pending = s.pending := rfl
@[simp] theorem State.setHostRead_drawn (s : State) (o : Option Byte) : (s.setHostRead o).drawn = s.drawn := rfl
@[simp] theorem State.setHostRead_reply (s : State) (o : Option Byte) : (s.setHostRead o).reply = s.reply := rfl
@[simp] theorem State.setHostRead_hostRead (s : State) (o : Option Byte) : (s.setHostRead o).hostRead = o := rfl
@[simp] theorem State.setHostRead_readOpen (s : State) (o : Option Byte) : (s.setHostRead o).readOpen = s.readOpen := rfl
@[simp] theorem State.setHostRead_codes (s : State) (o : Option Byte) : (s.setHostRead o).codes = s.codes := rfl


/-! ### `State.setReadOpen` -/

@[simp] theorem State.setReadOpen_cycleState (s : State) (b : Bool) : (s.setReadOpen b).cycleState = s.cycleState := rfl
@[simp] theorem State.setReadOpen_frameInfo (s : State) (b : Bool) : (s.setReadOpen b).frameInfo = s.frameInfo := rfl
@[simp] theorem State.setReadOpen_strobePrev (s : State) (b : Bool) : (s.setReadOpen b).strobePrev = s.strobePrev := rfl
@[simp] theorem State.setReadOpen_cycType (s : State) (b : Bool) : (s.setReadOpen b).cycType = s.cycType := rfl
@[simp] theorem State.setReadOpen_direction (s : State) (b : Bool) : (s.setReadOpen b).direction = s.direction := rfl
@[simp] theorem State.setReadOpen_address (s : State) (b : Bool) : (s.setReadOpen b).address = s.address := rfl
@[simp] theorem State.setReadOpen_data (s : State) (b : Bool) : (s.setReadOpen b).data = s.data := rfl
@[simp] theorem State.setReadOpen_ladOut (s : State) (b : Bool) : (s.setReadOpen b).ladOut = s.ladOut := rfl
@[simp] theorem State.setReadOpen_ladDir (s : State) (b : Bool) : (s.setReadOpen b).ladDir = s.ladDir := rfl
@[simp] theorem State.setReadOpen_buf (s : State) (b : Bool) : (s.setReadOpen b).buf = s.buf := rfl
@[simp] theorem State.setReadOpen_length (s : State) (b : Bool) : (s.setReadOpen b).length = s.length := rfl
@[simp] theorem State.setReadOpen_checksumAcc (s : State) (b : Bool) : (s.setReadOpen b).checksumAcc = s.checksumAcc := rfl
@[simp] theorem State.setReadOpen_ack (s : State) (b : Bool) : (s.setReadOpen b).ack = s.ack := rfl
@[simp] theorem State.setReadOpen_owner (s : State) (b : Bool) : (s.setReadOpen b).owner = s.owner := rfl
@[simp] theorem State.setReadOpen_pending (s : State) (b : Bool) : (s.setReadOpen b).pending = s.pending := rfl
@[simp] theorem State.setReadOpen_drawn (s : State) (b : Bool) : (s.setReadOpen b).drawn = s.drawn := rfl
@[simp] theorem State.setReadOpen_reply (s : State) (b : Bool) : (s.setReadOpen b).reply = s.reply := rfl
@[simp] theorem State.setReadOpen_hostRead (s : State) (b : Bool) : (s.setReadOpen b).hostRead = s.hostRead := rfl
@[simp] theorem State.setReadOpen_readOpen (s : State) (b : Bool) : (s.setReadOpen b).readOpen = b := rfl
@[simp] theorem State.setReadOpen_codes (s : State) (b : Bool) : (s.setReadOpen b).codes = s.codes := rfl

/-! ### The outputs and the frame-strobe reset, by field -/

theorem ladPins_of_host (s : State) (h : s.ladDir = .host) : s.ladPins = .released := by
  simp [State.ladPins, h]

theorem ladPins_of_peripheral (s : State) (h : s.ladDir = .peripheral) : s.ladPins = .driven s.ladOut := by
  simp [State.ladPins, h]

end Sys2Proof.Machine
end

