-- ==== Sys2Proof/Laws/Fields.lean ====
section
/-! SUPPORT. The bit fields: splitting and joining bytes and addresses, the CTDIR nibble, the ordinals, and the
address assembly, each said once. -/

namespace Sys2Proof

theorem extract_toNat {w : Nat} (v : BitVec w) (k : Nat) :
    (v.extractLsb' k 4).toNat = v.toNat / 2 ^ k % 16 := by
  simp [BitVec.extractLsb'_toNat, Nat.shiftRight_eq_div_pow]

theorem nibble_append (x : Nat) (n : Nibble) : x <<< 4 ||| n.toNat = x * 16 + n.toNat := by
  rw [← Nat.shiftLeft_add_eq_or_of_lt n.isLt, Nat.shiftLeft_eq]

theorem joinNibbles_toNat (hi lo : Nibble) : (joinNibbles hi lo).toNat = hi.toNat * 16 + lo.toNat := by
  rw [joinNibbles, BitVec.toNat_append, nibble_append]

theorem joinAddr_toNat (n1 n2 n3 n4 : Nibble) :
    (joinAddr n1 n2 n3 n4).toNat = ((n1.toNat * 16 + n2.toNat) * 16 + n3.toNat) * 16 + n4.toNat := by
  have h4 := n4.isLt
  have h3 := n3.isLt
  simp only [joinAddr, BitVec.toNat_append, nibble_append]
  rw [← Nat.shiftLeft_add_eq_or_of_lt (show n3.toNat * 16 + n4.toNat < 2 ^ 8 by omega), Nat.shiftLeft_eq]
  omega

/-- Splitting an address into its nibbles and joining them gives it back. -/
theorem joinAddr_nibbles (a : Addr) :
    joinAddr (a.extractLsb' 12 4) (a.extractLsb' 8 4) (a.extractLsb' 4 4) (a.extractLsb' 0 4) = a := by
  apply BitVec.eq_of_toNat_eq
  have h := a.isLt
  simp only [joinAddr_toNat, extract_toNat]
  omega

/-- Splitting a byte into its nibbles and joining them gives it back. -/
theorem joinNibbles_split (v : Byte) : joinNibbles (highNibble v) (lowNibble v) = v := by
  apply BitVec.eq_of_toNat_eq
  have h := v.isLt
  simp only [joinNibbles_toNat, highNibble, lowNibble, extract_toNat]
  omega

@[simp] theorem lowNibble_join (hi lo : Nibble) : lowNibble (joinNibbles hi lo) = lo := by
  apply BitVec.eq_of_toNat_eq
  have h := lo.isLt
  simp only [lowNibble, extract_toNat, joinNibbles_toNat]
  omega

@[simp] theorem highNibble_join (hi lo : Nibble) : highNibble (joinNibbles hi lo) = hi := by
  apply BitVec.eq_of_toNat_eq
  have h := lo.isLt
  have h' := hi.isLt
  simp only [highNibble, extract_toNat, joinNibbles_toNat]
  omega

/-- The two high bits of a CTDIR nibble are its type's code. -/
theorem ctdirNibble_type (codes : WireCodes) (t : CycleType) (d : Direction) (bit0 : Bool) :
    (ctdirNibble codes t d bit0).extractLsb' 2 2 = typeCode codes t :=
  (by decide : ∀ (c : BitVec 2) (x y : Bool),
    (c ++ (BitVec.ofBool x ++ BitVec.ofBool y : BitVec 2) : BitVec 4).extractLsb' 2 2 = c) _ _ _

/-- Bit 1 of a CTDIR nibble is its direction bit. -/
theorem ctdirNibble_dir (codes : WireCodes) (t : CycleType) (d : Direction) (bit0 : Bool) :
    (ctdirNibble codes t d bit0).getLsbD 1 = dirBit codes d :=
  (by decide : ∀ (c : BitVec 2) (x y : Bool),
    (c ++ (BitVec.ofBool x ++ BitVec.ofBool y : BitVec 2) : BitVec 4).getLsbD 1 = x) _ _ _

@[simp] theorem ctdirBit0_nibble (codes : WireCodes) (t : CycleType) (d : Direction) (bit0 : Bool) :
    ctdirBit0 (ctdirNibble codes t d bit0) = bit0 :=
  (by decide : ∀ (c : BitVec 2) (x y : Bool),
    (c ++ (BitVec.ofBool x ++ BitVec.ofBool y : BitVec 2) : BitVec 4).getLsbD 0 = y) _ _ _

/-- A nibble is its two high bits, bit 1 and bit 0. -/
theorem nibble_fields (n : Nibble) :
    (n.extractLsb' 2 2 ++ (BitVec.ofBool (n.getLsbD 1) ++ BitVec.ofBool (n.getLsbD 0) : BitVec 2) : BitVec 4) = n := by
  revert n
  decide

/-- What well-formed codes say: the frame codes differ, and so do the codes of two cycle types and two sync
codes. -/
theorem WireCodes.wf_iff (codes : WireCodes) :
    codes.wf = true ↔ codes.frameStart ≠ codes.frameAbort ∧
      codes.cycTypeIo ≠ codes.cycTypeMemory ∧ codes.cycTypeIo ≠ codes.cycTypeDma ∧
      codes.cycTypeIo ≠ codes.cycTypeReserved ∧ codes.cycTypeMemory ≠ codes.cycTypeDma ∧
      codes.cycTypeMemory ≠ codes.cycTypeReserved ∧ codes.cycTypeDma ≠ codes.cycTypeReserved ∧
      [codes.syncReady, codes.syncShortWait, codes.syncLongWait, codes.syncError].Nodup := by
  simp [WireCodes.wf, and_assoc]

/-- The type that a nibble's code stands for, read off the code. -/
theorem ctdirType_of_code {codes : WireCodes} (h : codes.wf = true) {n : Nibble} {t : CycleType}
    (ht : n.extractLsb' 2 2 = typeCode codes t) : ctdirType codes n = t := by
  obtain ⟨-, h1, h2, h3, h4, h5, h6, -⟩ := codes.wf_iff.mp h
  cases t <;> simp [ctdirType, ht, typeCode, h1.symm, h2.symm, h3.symm, h4.symm, h5.symm, h6.symm]

/-- Four distinct codes of two bits are all there are. -/
theorem typeCode_ctdirType {codes : WireCodes} (h : codes.wf = true) (n : Nibble) :
    typeCode codes (ctdirType codes n) = n.extractLsb' 2 2 := by
  obtain ⟨-, h1, h2, h3, h4, h5, h6, -⟩ := codes.wf_iff.mp h
  have key (a b c d x : BitVec 2) (_ : a ≠ b) (_ : a ≠ c) (_ : a ≠ d) (_ : b ≠ c) (_ : b ≠ d) (_ : c ≠ d)
      (_ : x ≠ a) (_ : x ≠ b) (_ : x ≠ c) : d = x := by bv_omega
  by_cases x1 : n.extractLsb' 2 2 = codes.cycTypeIo
  · simp [ctdirType, typeCode, x1]
  by_cases x2 : n.extractLsb' 2 2 = codes.cycTypeMemory
  · simp [ctdirType, typeCode, x2, h1.symm]
  by_cases x3 : n.extractLsb' 2 2 = codes.cycTypeDma
  · simp [ctdirType, typeCode, x3, h2.symm, h4.symm]
  · simpa [ctdirType, typeCode, x1, x2, x3] using key _ _ _ _ _ h1 h2 h3 h4 h5 h6 x1 x2 x3

theorem ctdirType_nibble {codes : WireCodes} (h : codes.wf = true) (t : CycleType) (d : Direction) (bit0 : Bool) :
    ctdirType codes (ctdirNibble codes t d bit0) = t :=
  ctdirType_of_code h (ctdirNibble_type codes t d bit0)

/-- The IO code is tested first, so it is read back whatever the other codes are. -/
@[simp] theorem ctdirType_io_nibble (codes : WireCodes) (d : Direction) (bit0 : Bool) :
    ctdirType codes (ctdirNibble codes .io d bit0) = .io := by
  simp [ctdirType, ctdirNibble_type, typeCode]

@[simp] theorem ctdirDirection_nibble (codes : WireCodes) (t : CycleType) (d : Direction) (bit0 : Bool) :
    ctdirDirection codes (ctdirNibble codes t d bit0) = d := by
  cases d <;> simp only [ctdirDirection, ctdirNibble_dir] <;> simp [dirBit, WireCodes.dirRead]

/-- The direction bit of the direction read off a nibble is the nibble's bit 1. -/
theorem dirBit_ctdirDirection (codes : WireCodes) (n : Nibble) :
    dirBit codes (ctdirDirection codes n) = n.getLsbD 1 := by
  unfold ctdirDirection
  split
  · next h => exact h.symm
  · next h => simpa [dirBit, WireCodes.dirRead] using (Bool.eq_not.mpr h).symm

/-- A CTDIR nibble is the nibble of its fields. -/
theorem ctdirNibble_fields {codes : WireCodes} (h : codes.wf = true) (n : Nibble) :
    ctdirNibble codes (ctdirType codes n) (ctdirDirection codes n) (ctdirBit0 n) = n := by
  rw [ctdirNibble, typeCode_ctdirType h, dirBit_ctdirDirection, ctdirBit0, nibble_fields]

@[simp] theorem ofOrdinal_ordinal (c : CycleState) : CycleState.ofOrdinal c.ordinal = c := by
  cases c <;> rfl

@[simp] theorem ordinal_ofOrdinal (k : Nibble) : (CycleState.ofOrdinal k).ordinal = k := by
  revert k
  decide

/-- A payload address is an address of the buffer and carries its offset. -/
theorem payloadAddr_toNat (offset : Byte) : (payloadAddr offset).toNat = offset.toNat := by
  have h := offset.isLt
  rw [payloadAddr, BitVec.toNat_setWidth]
  omega

namespace Machine

/-- An address nibble moves the old value up by four bits and stands in the low four. -/
theorem shiftIn_toNat (a : Addr) (n : Nibble) : (shiftIn a n).toNat = (a.toNat * 16 + n.toNat) % 65536 := by
  have hn := n.isLt
  have hsum : (a.toNat * 16 + n.toNat) % 65536 = (a.toNat % 4096) <<< 4 + n.toNat := by
    rw [Nat.shiftLeft_eq]; omega
  rw [hsum, Nat.shiftLeft_add_eq_or_of_lt (by omega)]
  simp only [shiftIn, BitVec.toNat_or, BitVec.toNat_shiftLeft, BitVec.toNat_setWidth, Nat.shiftLeft_eq]
  rw [show a.toNat * 2 ^ 4 % 2 ^ 16 = (a.toNat % 4096) * 2 ^ 4 by omega, Nat.mod_eq_of_lt (by omega : n.toNat < 2 ^ 16)]

/-- Four nibbles shifted in leave nothing of the old value. -/
theorem shiftIn_four (a : Addr) (n1 n2 n3 n4 : Nibble) :
    shiftIn (shiftIn (shiftIn (shiftIn a n1) n2) n3) n4 = joinAddr n1 n2 n3 n4 := by
  apply BitVec.eq_of_toNat_eq
  have h1 := n1.isLt
  have h2 := n2.isLt
  have h3 := n3.isLt
  have h4 := n4.isLt
  simp only [shiftIn_toNat, joinAddr_toNat]
  omega

/-- The offset of a payload address. -/
theorem payloadOffset_payloadAddr (offset : Byte) : payloadOffset (payloadAddr offset) = offset.toNat := by
  have h := offset.isLt
  rw [payloadOffset, BitVec.toNat_setWidth, payloadAddr_toNat]
  omega

end Machine

end Sys2Proof
end

