-- ==== Sys2Proof/Laws/Memory.lean ====
section
/-! SUPPORT. The buffer: what a write leaves at each offset, and that every operation keeps the canonical
form. -/

namespace Sys2Proof.Machine

@[simp] theorem Memory.get_nil (a : Nat) : Memory.get [] a = Config.unlistedByte := rfl

theorem Memory.get_cons (k : Nat) (v : Byte) (m : Memory) (a : Nat) :
    Memory.get ((k, v) :: m) a = if k = a then v else Memory.get m a := rfl

/-- Canonical from an offset on is canonical from any lower one. -/
theorem Memory.wfFrom_mono {lo lo' : Nat} {m : Memory} (h : Memory.wfFrom lo m = true) (hl : lo' ≤ lo) :
    Memory.wfFrom lo' m = true := by
  cases m with
  | nil => rfl
  | cons c rest =>
    obtain ⟨k, v⟩ := c
    simp only [Memory.wfFrom, Bool.and_eq_true, decide_eq_true_eq] at h ⊢
    exact ⟨⟨⟨by omega, h.1.1.2⟩, h.1.2⟩, h.2⟩

/-- Below the first offset a canonical list holds nothing. -/
theorem Memory.get_below {lo : Nat} {m : Memory} (h : Memory.wfFrom lo m = true) {a : Nat} (ha : a < lo) :
    Memory.get m a = Config.unlistedByte := by
  induction m generalizing lo with
  | nil => rfl
  | cons c rest ih =>
    obtain ⟨k, v⟩ := c
    simp only [Memory.wfFrom, Bool.and_eq_true, decide_eq_true_eq] at h
    rw [Memory.get_cons, if_neg (by omega)]
    exact ih h.2 (by omega)

/-- What a write leaves at each offset. -/
theorem Memory.get_put {lo : Nat} {m : Memory} (h : Memory.wfFrom lo m = true) (a : Nat) (b : Byte) (x : Nat) :
    Memory.get (Memory.put m a b) x = if x = a then b else Memory.get m x := by
  induction m generalizing lo with
  | nil =>
    by_cases hb : b = Config.unlistedByte
    · rw [Memory.put, if_pos hb, hb]
      simp
    · rw [Memory.put, if_neg hb, Memory.get_cons]
      simp [eq_comm]
  | cons c rest ih =>
    obtain ⟨k, v⟩ := c
    simp only [Memory.wfFrom, Bool.and_eq_true, decide_eq_true_eq] at h
    have below : ∀ y, y < k + 1 → Memory.get rest y = Config.unlistedByte := fun y hy => Memory.get_below h.2 hy
    by_cases hlt : a < k
    · by_cases hb : b = Config.unlistedByte
      · rw [Memory.put, if_pos hlt, if_pos hb]
        split
        · rename_i hx
          rw [Memory.get_cons, if_neg (by omega), below x (by omega), hb]
        · rfl
      · rw [Memory.put, if_pos hlt, if_neg hb, Memory.get_cons]
        simp [eq_comm]
    · by_cases heq : a = k
      · subst heq
        by_cases hb : b = Config.unlistedByte
        · rw [Memory.put, if_neg hlt, if_pos rfl, if_pos hb]
          split
          · rename_i hx
            rw [below x (by omega), hb]
          · rename_i hx
            rw [Memory.get_cons, if_neg (fun e => hx e.symm)]
        · rw [Memory.put, if_neg hlt, if_pos rfl, if_neg hb, Memory.get_cons, Memory.get_cons]
          by_cases hx : a = x
          · simp [hx]
          · simp [hx, Ne.symm hx]
      · rw [Memory.put, if_neg hlt, if_neg heq, Memory.get_cons, Memory.get_cons, ih h.2]
        by_cases hk : k = x
        · rw [if_pos hk, if_pos hk, if_neg (by omega)]
        · rw [if_neg hk, if_neg hk]

/-- A write of an offset below 256 keeps the canonical form. -/
theorem Memory.put_wfFrom {lo : Nat} {m : Memory} (h : Memory.wfFrom lo m = true) {a : Nat} (b : Byte)
    (hlo : lo ≤ a) (ha : a < Config.bufSize) : Memory.wfFrom lo (Memory.put m a b) = true := by
  induction m generalizing lo with
  | nil => by_cases hb : b = Config.unlistedByte <;> simp_all [Memory.put, Memory.wfFrom]
  | cons c rest ih =>
    obtain ⟨k, v⟩ := c
    have h' := h
    simp only [Memory.wfFrom, Bool.and_eq_true, decide_eq_true_eq] at h
    obtain ⟨⟨⟨h1, h2⟩, h3⟩, h4⟩ := h
    unfold Memory.put
    split
    · rename_i hlt
      split
      · exact h'
      · rename_i hb
        simp only [Memory.wfFrom, Bool.and_eq_true, decide_eq_true_eq]
        exact ⟨⟨⟨hlo, ha⟩, hb⟩, ⟨⟨by omega, h2⟩, h3⟩, h4⟩
    · split
      · rename_i hlt heq
        subst heq
        split
        · exact Memory.wfFrom_mono h4 (by omega)
        · rename_i hb
          simp only [Memory.wfFrom, Bool.and_eq_true, decide_eq_true_eq]
          exact ⟨⟨⟨hlo, ha⟩, hb⟩, h4⟩
      · rename_i hlt heq
        simp only [Memory.wfFrom, Bool.and_eq_true, decide_eq_true_eq]
        exact ⟨⟨⟨h1, h2⟩, h3⟩, ih h4 (by omega)⟩

/-- A byte write keeps the canonical form. -/
theorem Memory.put_wf {m : Memory} (h : m.wf = true) {a : Nat} (b : Byte) (ha : a < Config.bufSize) :
    (m.put a b).wf = true :=
  Memory.put_wfFrom h b (Nat.zero_le a) ha

/-- A write of bytes that fit keeps the canonical form. -/
theorem Memory.putBytes_wf {m : Memory} (h : m.wf = true) (bytes : List Byte) {a : Nat}
    (ha : a + bytes.length ≤ Config.bufSize) : (m.putBytes a bytes).wf = true := by
  induction bytes generalizing m a with
  | nil => exact h
  | cons b rest ih =>
    simp only [List.length_cons] at ha
    exact ih (Memory.put_wf h b (by omega)) (by omega)

/-- The buffer right after a launch with nothing listed is canonical. -/
theorem reset_buf_wf : State.reset.buf.wf = true := rfl

/-- A payload offset is an offset of the buffer. -/
theorem payloadOffset_lt (a : Addr) : payloadOffset a < Config.bufSize := (a.setWidth 8).isLt

end Sys2Proof.Machine
end

