-- ==== Sys2Proof/Laws/Transport.lean ====
section
/-! SUPPORT. The two handlers, each said once: the case an access falls into and what it leaves (spec R110 to
R116, R120 to R126). -/

namespace Sys2Proof.Machine

/-- The write handler, by its six cases. -/
theorem transportWrite_cases (a : Addr) (v : Byte) (s : State) :
    (s.owner = true ∧ transportWrite a v s = s) ∨
    (s.owner = false ∧ a = Config.addrLength ∧ transportWrite a v s = writeLength v s) ∨
    (s.owner = false ∧ a = Config.addrChecksum ∧ transportWrite a v s = writeChecksum v s) ∨
    (s.owner = false ∧ a = Config.addrAck ∧ transportWrite a v s = writeAck v s) ∨
    (s.owner = false ∧ a ≤ Config.bufLast ∧ transportWrite a v s = writePayload a v s) ∨
    (s.owner = false ∧ unmapped a = true ∧ transportWrite a v s = s) := by
  unfold transportWrite
  cases ho : s.owner
  · rw [if_neg (by simp)]
    by_cases h1 : a = Config.addrLength
    · exact .inr (.inl ⟨rfl, h1, if_pos h1⟩)
    rw [if_neg h1]
    by_cases h2 : a = Config.addrChecksum
    · exact .inr (.inr (.inl ⟨rfl, h2, if_pos h2⟩))
    rw [if_neg h2]
    by_cases h3 : a = Config.addrAck
    · exact .inr (.inr (.inr (.inl ⟨rfl, h3, if_pos h3⟩)))
    rw [if_neg h3]
    by_cases h4 : a ≤ Config.bufLast
    · exact .inr (.inr (.inr (.inr (.inl ⟨rfl, h4, if_pos h4⟩))))
    · refine .inr (.inr (.inr (.inr (.inr ⟨rfl, ?_, if_neg h4⟩))))
      simp [unmapped, h1, h2, h3, h4]
  · exact .inl ⟨rfl, if_pos rfl⟩

/-- The read handler, by its six cases. -/
theorem transportRead_cases (a : Addr) (s : State) :
    (s.owner = true ∧ transportRead a s = (none, s)) ∨
    (s.owner = false ∧ a = Config.addrLength ∧ transportRead a s = readLength s) ∨
    (s.owner = false ∧ a = Config.addrChecksum ∧ transportRead a s = readChecksum s) ∨
    (s.owner = false ∧ a = Config.addrAck ∧ transportRead a s = readAck s) ∨
    (s.owner = false ∧ a ≤ Config.bufLast ∧ transportRead a s = readPayload a s) ∨
    (s.owner = false ∧ unmapped a = true ∧ transportRead a s = (none, s)) := by
  unfold transportRead
  cases ho : s.owner
  · rw [if_neg (by simp)]
    by_cases h1 : a = Config.addrLength
    · exact .inr (.inl ⟨rfl, h1, if_pos h1⟩)
    rw [if_neg h1]
    by_cases h2 : a = Config.addrChecksum
    · exact .inr (.inr (.inl ⟨rfl, h2, if_pos h2⟩))
    rw [if_neg h2]
    by_cases h3 : a = Config.addrAck
    · exact .inr (.inr (.inr (.inl ⟨rfl, h3, if_pos h3⟩)))
    rw [if_neg h3]
    by_cases h4 : a ≤ Config.bufLast
    · exact .inr (.inr (.inr (.inr (.inl ⟨rfl, h4, if_pos h4⟩))))
    · refine .inr (.inr (.inr (.inr (.inr ⟨rfl, ?_, if_neg h4⟩))))
      simp [unmapped, h1, h2, h3, h4]
  · exact .inl ⟨rfl, if_pos rfl⟩

/-- What a write by the host never touches: the decoder, the ownership flag and the model's own fields. -/
theorem transportWrite_frame (a : Addr) (v : Byte) (s : State) :
    transportWrite a v s = { s with
      buf := (transportWrite a v s).buf, length := (transportWrite a v s).length,
      checksumAcc := (transportWrite a v s).checksumAcc, ack := (transportWrite a v s).ack } := by
  rcases transportWrite_cases a v s with h | h | h | h | h | h
  · rw [h.2]
  all_goals (rw [h.2.2]; try rfl)

/-- What a read by the host never touches: all but the accumulator and the ownership flag. -/
theorem transportRead_frame (a : Addr) (s : State) :
    (transportRead a s).2 = { s with
      checksumAcc := (transportRead a s).2.checksumAcc, owner := (transportRead a s).2.owner } := by
  rcases transportRead_cases a s with h | h | h | h | h | h
  · rw [h.2]
  all_goals (rw [h.2.2]; try rfl)

/-- A failed read leaves the state as it was. -/
theorem transportRead_failed (a : Addr) (s : State) (h : (transportRead a s).1 = none) :
    transportRead a s = (none, s) := by
  rcases transportRead_cases a s with e | e | e | e | e | e
  · exact e.2
  · rw [e.2.2] at h; cases h
  · rw [e.2.2] at h; cases h
  · rw [e.2.2] at h; cases h
  · rw [e.2.2] at h; cases h
  · exact e.2.2

/-- The handlers look at the transport's registers only: a write commutes with a drive of the latch. -/
theorem transportWrite_setLadOut (a : Addr) (v : Byte) (n : Nibble) (s : State) :
    transportWrite a v (s.setLadOut n) = (transportWrite a v s).setLadOut n := by
  cases ho : s.owner <;> simp only [transportWrite, State.setLadOut_owner, ho]
  · by_cases h1 : a = Config.addrLength
    · simp [h1]; rfl
    · by_cases h2 : a = Config.addrChecksum
      · simp [h2]; rfl
      · by_cases h3 : a = Config.addrAck
        · simp [h3]; rfl
        · by_cases h4 : a ≤ Config.bufLast
          · simp [h1, h2, h3, h4]; rfl
          · simp [h1, h2, h3, h4]
  · rfl

end Sys2Proof.Machine
end

