-- ==== Sys2Proof/Laws/Decoder.lean ====
section
/-! SUPPORT. The decoder's shared operations, each said once: the frame-strobe reset, the edge, runs of edges,
the fetch. -/

namespace Sys2Proof.Machine

/-- The frame-strobe reset writes two registers. -/
theorem frameReset_eq (s : State) : frameReset s = { s with cycleState := .idle, ladDir := .host } := rfl

@[simp] theorem edgeStep_fall (n : Nibble) (s : State) (h : s.strobePrev = .inactive) :
    edgeStep n .active s = fallEdge s := by simp [edgeStep, h]

@[simp] theorem edgeStep_hold (n : Nibble) (s : State) (h : s.strobePrev = .active) :
    edgeStep n .active s = holdEdge n s := by simp [edgeStep, h]

@[simp] theorem edgeStep_rise (n : Nibble) (s : State) (h : s.strobePrev = .active) :
    edgeStep n .inactive s = riseEdge n s := by simp [edgeStep, h]

@[simp] theorem edgeStep_run (n : Nibble) (s : State) (h : s.strobePrev = .inactive) :
    edgeStep n .inactive s = runEdge n s := by simp [edgeStep, h]

@[simp] theorem runEdges_nil (s : State) : runEdges [] s = s := rfl

@[simp] theorem runEdges_cons (e : Sample) (l : List Sample) (s : State) :
    runEdges (e :: l) s = runEdges l (edgeStep e.ladIn e.strobe s) := rfl

theorem runEdges_append (l l' : List Sample) (s : State) : runEdges (l ++ l') s = runEdges l' (runEdges l s) := by
  induction l generalizing s with
  | nil => rfl
  | cons e rest ih => exact ih _

/-- The fetch, for a listed stimulus, when no line of the host goes on. -/
theorem fetchPacket_cons (s : State) (x : Stimulus) (l : List Stimulus) (h : s.pending = x :: l)
    (hg : readGoesOn s = false) : fetchPacket s = stimulusPacket s.strobePrev x := by
  simp [fetchPacket, nextStimulus, upcoming, h, hg]

/-- That stimulus is taken off the list, and a new frame ends an open line. -/
theorem advance_cons (s : State) (x : Stimulus) (l : List Stimulus) (h : s.pending = x :: l)
    (hg : readGoesOn s = false) :
    advance s = { s with pending := l, readOpen := if opensFrame x then false else s.readOpen } := by
  simp only [advance, hg, upcoming, takeUpcoming, h]
  cases opensFrame x <;> rfl

/-- A line that goes on is one of the host's with the strobe inactive. -/
theorem readGoesOn_strobe (s : State) (h : readGoesOn s = true) : s.readOpen = true ∧ s.strobePrev = .inactive := by
  simp only [readGoesOn, Bool.and_eq_true, decide_eq_true_eq] at h
  exact h.1

/-- The fetch of an edge of the open line: a RUN edge, and nothing of the outside is taken. -/
theorem fetchPacket_line (s : State) (h : readGoesOn s = true) :
    fetchPacket s = stimulusPacket s.strobePrev lineEdge := by simp [fetchPacket, nextStimulus, h]

theorem advance_line (s : State) (h : readGoesOn s = true) : advance s = s := by simp [advance, h]

/-- Fetching writes three fields of the model's own. -/
theorem advance_frame (s : State) : advance s = { s with
    pending := (advance s).pending, drawn := (advance s).drawn, readOpen := (advance s).readOpen } := by
  unfold advance takeUpcoming
  repeat' split
  all_goals rfl

/-- A sample decodes to the event of its two strobe levels. -/
theorem decode_sample (codes : WireCodes) (prev now : Strobe) (n : Nibble) :
    decode codes (stimulusPacket prev (.act (.sample now n))) = .ok (Instr.ofEvent prev now n) := by
  cases prev <;> cases now <;> rfl

/-- The two outcomes of a call of `Submit` with at most 255 bytes. -/
theorem submitCall_short (payload : List Byte) (s : State) (h : payload.length ≤ 255) :
    submitCall payload s = if s.owner = true then acceptSubmit payload s else s.setReply .failed := by
  cases ho : s.owner <;> simp [submitCall, ho, h]

end Sys2Proof.Machine
end

