-- ==== Sys2Proof/Laws/Cycles.lean ====
section
/-! SUPPORT. Whole frames and cycles, runs of edges and the calls: for each shared operation, once, what it
leaves. -/

namespace Sys2Proof.Machine

/-! ## What an edge never touches -/

/-- A state action writes neither the frame sampler's registers nor the configuration, and of the model's own fields
only the byte the host reads. -/
theorem stateStep_frame (n : Nibble) (s : State) :
    (stateStep n s).strobePrev = s.strobePrev ∧ (stateStep n s).frameInfo = s.frameInfo ∧
    (stateStep n s).pending = s.pending ∧ (stateStep n s).drawn = s.drawn ∧
    (stateStep n s).reply = s.reply ∧ (stateStep n s).readOpen = s.readOpen ∧
    (stateStep n s).codes = s.codes := by
  unfold stateStep
  split <;> try exact ⟨rfl, rfl, rfl, rfl, rfl, rfl, rfl⟩
  unfold actSync
  split
  · unfold actSyncRead
    have h := transportRead_frame s.address s
    split <;> (next e => rw [e] at h; simp only at h; rw [h]; exact ⟨rfl, rfl, rfl, rfl, rfl, rfl, rfl⟩)
  · unfold actSyncWrite
    rw [transportWrite_frame]
    exact ⟨rfl, rfl, rfl, rfl, rfl, rfl, rfl⟩

/-- An edge touches of the model's own fields only the byte the host reads, and not the configuration. -/
theorem edgeStep_frame (n : Nibble) (strobe : Strobe) (s : State) :
    (edgeStep n strobe s).pending = s.pending ∧ (edgeStep n strobe s).drawn = s.drawn ∧
    (edgeStep n strobe s).reply = s.reply ∧ (edgeStep n strobe s).readOpen = s.readOpen ∧
    (edgeStep n strobe s).codes = s.codes := by
  unfold edgeStep
  split
  · exact ⟨rfl, rfl, rfl, rfl, rfl⟩
  · exact ⟨rfl, rfl, rfl, rfl, rfl⟩
  · exact (stateStep_frame n _).2.2
  · exact (stateStep_frame n _).2.2

/-- Nor does a run of edges. -/
theorem runEdges_frame (l : List Sample) (s : State) :
    (runEdges l s).pending = s.pending ∧ (runEdges l s).drawn = s.drawn ∧
    (runEdges l s).reply = s.reply ∧ (runEdges l s).readOpen = s.readOpen ∧ (runEdges l s).codes = s.codes := by
  induction l generalizing s with
  | nil => exact ⟨rfl, rfl, rfl, rfl, rfl⟩
  | cons e rest ih =>
    obtain ⟨h1, h2, h3, h4, h5⟩ := edgeStep_frame e.ladIn e.strobe s
    obtain ⟨i1, i2, i3, i4, i5⟩ := ih (edgeStep e.ladIn e.strobe s)
    exact ⟨i1.trans h1, i2.trans h2, i3.trans h3, i4.trans h4, i5.trans h5⟩

/-- Edges with the strobe held active leave the last nibble as the frame code, and nothing else. -/
theorem runEdges_holds (l : List Nibble) (s : State) (h : s.strobePrev = .active) :
    runEdges (l.map (Sample.mk .active)) s = { s with frameInfo := (l.getLast?).getD s.frameInfo } := by
  induction l generalizing s with
  | nil => rfl
  | cons n rest ih =>
    rw [List.map, runEdges_cons, edgeStep_hold _ _ h, ih _ rfl]
    obtain ⟨cs, fi, sp⟩ := s
    cases h
    cases rest with
    | nil => rfl
    | cons m rest => simp [holdEdge, State.setStrobePrev, State.setFrameInfo, List.getLast?_cons]

/-! ## Frames and cycles -/

/-- A frame and its RISE edge: the code is latched, the lines are released when the frame began with a falling
edge, and the action of the state the code selects runs. -/
theorem runEdges_frameEdges (code n : Nibble) (s : State) :
    runEdges (frameEdges code n) s = stateStep n { s with
      cycleState := frameTarget s.codes code, frameInfo := code, strobePrev := .inactive,
      ladDir := if s.strobePrev = .inactive then .host else s.ladDir } := by
  cases h : s.strobePrev <;>
    simp [frameEdges, dataEdge, edgeStep, h, fallEdge, holdEdge, riseEdge, frameReset] <;> rfl

/-- The eleven edges after the CTDIR nibble of a write: one call of the write handler with exactly this address and
byte, and the decoder at rest. -/
theorem runEdges_writeTail (a : Addr) (v : Byte) (s : State) (y0 y1 y2 y3 y4 : Nibble)
    (hs : s.strobePrev = .inactive) (hc : s.cycleState = .addr0) (hd : s.direction = .write) :
    runEdges ([a.extractLsb' 12 4, a.extractLsb' 8 4, a.extractLsb' 4 4, a.extractLsb' 0 4,
        v.extractLsb' 0 4, v.extractLsb' 4 4, y0, y1, y2, y3, y4].map (Sample.mk .inactive)) s =
      transportWrite a v { s with
        cycleState := .idle, address := a, data := v, ladOut := 0xF#4, ladDir := .host } := by
  have hw : ∀ a0 : Addr, shiftIn (shiftIn (shiftIn (shiftIn a0 (a.extractLsb' 12 4)) (a.extractLsb' 8 4))
      (a.extractLsb' 4 4)) (a.extractLsb' 0 4) = a := by
    intro a0
    rw [shiftIn_four, joinAddr_nibbles]
  have hv : ∀ v0 : Byte, withHighNibble (withLowNibble v0 (v.extractLsb' 0 4)) (v.extractLsb' 4 4) = v := by
    intro v0
    rw [withHighNibble, withLowNibble, lowNibble_join]
    exact joinNibbles_split v
  obtain ⟨cs, fi, sp, ct, d, ad, da, lo, ld, bu, le, ch, ac, ow, pe, dr, re, hr, ro, co⟩ := s
  subst hs hc hd
  simp only [List.map, runEdges, edgeStep, runEdge, stateStep, actAddr, actAddr3, addrTarget, actDataWrite0,
    actDataWrite1, actDrive, actTurn, actSync, actSyncWrite, State.goto, State.setStrobePrev, State.setAddress,
    State.setData, State.setLadOut, State.setLadDir, hw, hv]
  cases ow
  · simp only [transportWrite]
    by_cases h1 : a = Config.addrLength
    · subst h1; rfl
    by_cases h2 : a = Config.addrChecksum
    · subst h2; rfl
    by_cases h3 : a = Config.addrAck
    · subst h3; rfl
    by_cases h4 : a ≤ Config.bufLast
    · simp only [h1, h2, h3, h4, if_true, if_false, Bool.false_eq_true]
      rfl
    · simp only [h1, h2, h3, h4, if_false, Bool.false_eq_true]
  · rfl

/-- The state in Sync of a read, before the first call of the read handler. -/
def readInSync (a : Addr) (s : State) : State :=
  { s with
    cycleState := .sync, frameInfo := s.codes.frameStart, strobePrev := .inactive, cycType := .io, direction := .read,
    address := a, ladOut := s.codes.syncShortWait, ladDir := .peripheral }

/-- The edges of a read up to Sync. -/
def readHead (codes : WireCodes) (bit0 : Bool) (a : Addr) (y0 y1 : Nibble) : List Sample :=
  frameEdges codes.frameStart (ctdirNibble codes .io .read bit0) ++
    [a.extractLsb' 12 4, a.extractLsb' 8 4, a.extractLsb' 4 4, a.extractLsb' 0 4, y0, y1].map (Sample.mk .inactive)

/-- They lead to Sync from every state. -/
theorem runEdges_readHead (bit0 : Bool) (a : Addr) (s : State) (y0 y1 : Nibble) :
    runEdges (readHead s.codes bit0 a y0 y1) s = readInSync a s := by
  have hw : ∀ a0 : Addr, shiftIn (shiftIn (shiftIn (shiftIn a0 (a.extractLsb' 12 4)) (a.extractLsb' 8 4))
      (a.extractLsb' 4 4)) (a.extractLsb' 0 4) = a := by
    intro a0
    rw [shiftIn_four, joinAddr_nibbles]
  rw [readHead, runEdges_append, runEdges_frameEdges]
  simp [frameTarget, stateStep, actCycTypeAndDir, ctdirTarget, edgeStep, runEdge, actAddr, actAddr3, addrTarget,
    actDrive, actTurn, hw, turnCode]
  rfl

/-- The trace of a run of edges is the traces of its parts. -/
theorem pinsTrace_append (l l' : List Sample) (s : State) :
    pinsTrace (l ++ l') s = pinsTrace l s ++ pinsTrace l' (runEdges l s) := by
  induction l generalizing s with
  | nil => rfl
  | cons e rest ih => simp [pinsTrace, ih]

theorem pinsTrace_length (l : List Sample) (s : State) : (pinsTrace l s).length = l.length := by
  induction l generalizing s with
  | nil => rfl
  | cons e rest ih => simp [pinsTrace, ih]

/-- DataRead1 while the block drives: the high nibble, and the host has the byte. -/
theorem actDataRead1_driven (s : State) (h : s.ladDir = .peripheral) : actDataRead1 s =
    { s with ladOut := highNibble s.data, cycleState := .turnToHost0,
             hostRead := some (joinNibbles (highNibble s.data) s.ladOut) } := by
  cases s
  cases h
  rfl

/-- DataRead1 while it does not drive: the host has nothing new. -/
theorem actDataRead1_released (s : State) (h : s.ladDir = .host) : actDataRead1 s =
    { s with ladOut := highNibble s.data, cycleState := .turnToHost0 } := by
  cases s
  cases h
  rfl

/-- The five edges of a read from Sync on, when the read handler answers a byte. -/
theorem runEdges_readTail (a : Addr) (s t : State) (v : Byte) (y0 y1 y2 y3 y4 : Nibble)
    (h : transportRead a (readInSync a s) = (some v, t)) :
    runEdges ([y0, y1, y2, y3, y4].map (Sample.mk .inactive)) (readInSync a s) =
      { t with cycleState := .idle, data := v, ladOut := 0xF#4, ladDir := .host, hostRead := some v } ∧
    pinsTrace ([y0, y1, y2, y3, y4].map (Sample.mk .inactive)) (readInSync a s) =
      [.driven s.codes.syncReady, .driven (lowNibble v), .driven (highNibble v), .driven 0xF#4, .released] := by
  have f := transportRead_frame a (readInSync a s)
  rw [h] at f
  have g0 : (readInSync a s).setStrobePrev .inactive = readInSync a s := rfl
  have g1 : (readInSync a s).cycleState = .sync := rfl
  have g2 : (readInSync a s).direction = .read := rfl
  have g3 : (readInSync a s).address = a := rfl
  have g4 : (readInSync a s).strobePrev = .inactive := rfl
  simp only at f
  have k1 : t.strobePrev = .inactive := by rw [f]; rfl
  have k2 : t.ladDir = .peripheral := by rw [f]; rfl
  constructor
  · simp [edgeStep, g4, runEdge, g0, stateStep, g1, actSync, g2, actSyncRead, g3, h, actDrive, k1, actTurn,
      actDataRead1, hostSees, State.ladPins, k2, joinNibbles_split]
    cases t; simp_all; rfl
  · simp [pinsTrace, edgeStep, g4, runEdge, g0, stateStep, g1, actSync, g2, actSyncRead, g3, h, actDrive, k1,
      actTurn, actDataRead1, State.ladPins, k2]
    rfl

/-- Any number of edges in Sync of a read whose handler fails change nothing. -/
theorem runEdges_waiting (a : Addr) (s : State) (l : List Nibble)
    (h : transportRead a (readInSync a s) = (none, readInSync a s)) :
    runEdges (l.map (Sample.mk .inactive)) (readInSync a s) = readInSync a s ∧
    pinsTrace (l.map (Sample.mk .inactive)) (readInSync a s) =
      List.replicate l.length (.driven s.codes.syncShortWait) := by
  have stuck : ∀ n, edgeStep n .inactive (readInSync a s) = readInSync a s := by
    intro n
    have g0 : (readInSync a s).setStrobePrev .inactive = readInSync a s := rfl
    have g1 : (readInSync a s).cycleState = .sync := rfl
    have g2 : (readInSync a s).direction = .read := rfl
    have g3 : (readInSync a s).address = a := rfl
    have g4 : (readInSync a s).strobePrev = .inactive := rfl
    simp [edgeStep, g4, runEdge, g0, stateStep, g1, actSync, g2, actSyncRead, g3, h, actDrive]
    rfl
  induction l with
  | nil => exact ⟨rfl, rfl⟩
  | cons n rest ih =>
    simp only [List.map, runEdges, pinsTrace, stuck n, ih, List.length_cons, List.replicate_succ]
    exact ⟨trivial, rfl⟩

/-- A whole read whose handler answers at its first Sync edge. -/
theorem readCycle_completes (bit0 : Bool) (a : Addr) (s t : State) (v : Byte)
    (h : transportRead a (readInSync a (s.setHostRead none)) = (some v, t)) :
    readCycle bit0 a s = { t with
      cycleState := .idle, data := v, ladOut := 0xF#4, ladDir := .host, hostRead := some v, readOpen := false } := by
  have e : readEdges s.codes bit0 a = readHead (s.setHostRead none).codes bit0 a (Config.freeLadIn 7)
      (Config.freeLadIn 8) ++ [Config.freeLadIn 9, Config.freeLadIn 10, Config.freeLadIn 11, Config.freeLadIn 12,
        Config.freeLadIn 13].map (Sample.mk .inactive) := rfl
  rw [readCycle, e, runEdges_append, runEdges_readHead, (runEdges_readTail a _ t v _ _ _ _ _ h).1]
  rfl

/-- A whole read whose handler fails: Sync, the line open and no byte. -/
theorem readCycle_waits (bit0 : Bool) (a : Addr) (s : State)
    (h : transportRead a (readInSync a (s.setHostRead none)) = (none, readInSync a (s.setHostRead none))) :
    readCycle bit0 a s = { readInSync a s with hostRead := none, readOpen := true } := by
  have e : readEdges s.codes bit0 a = readHead (s.setHostRead none).codes bit0 a (Config.freeLadIn 7)
      (Config.freeLadIn 8) ++ [Config.freeLadIn 9, Config.freeLadIn 10, Config.freeLadIn 11, Config.freeLadIn 12,
        Config.freeLadIn 13].map (Sample.mk .inactive) := rfl
  rw [readCycle, e, runEdges_append, runEdges_readHead, (runEdges_waiting a _ _ h).1]
  rfl

/-! ## The calls and the fetch -/

/-- What an application call writes: the buffer, `length`, the ownership flag and its result. -/
theorem submitCall_frame (payload : List Byte) (s : State) :
    submitCall payload s = { s with
      buf := (submitCall payload s).buf, length := (submitCall payload s).length,
      owner := (submitCall payload s).owner, reply := (submitCall payload s).reply } := by
  unfold submitCall submitFull
  repeat' split
  all_goals rfl

/-- What a write of bytes from an offset on leaves at each offset. -/
theorem Memory.get_putBytes {m : Memory} (h : m.wf = true) (bytes : List Byte) (k : Nat)
    (hk : k + bytes.length ≤ Config.bufSize) (x : Nat) :
    (m.putBytes k bytes).get x = if x < k then m.get x else (bytes[x - k]?).getD (m.get x) := by
  induction bytes generalizing m k with
  | nil => simp [Memory.putBytes]
  | cons v rest ih =>
    simp only [List.length_cons] at hk
    rw [Memory.putBytes, ih (Memory.put_wf h v (by omega)) _ (by omega), Memory.get_put h]
    by_cases hx : x < k
    · simp [hx, show x < k + 1 by omega, show x ≠ k by omega]
    · by_cases hxk : x = k
      · subst hxk
        simp
      · rw [if_neg (show ¬ x < k + 1 by omega), if_neg hx, if_neg hxk, show x - k = (x - (k + 1)) + 1 by omega]
        simp

end Sys2Proof.Machine
end

