-- ==== Sys2Proof/Laws/PerInstr.lean ====
section
/-! SUPPORT. Facts about every instruction as syntax, one lemma for each constructor. -/

namespace Sys2Proof.Laws

/-- How many nibbles a packet of a format has: the table's word, and the sampled nibble where the table gives it
no bits (spec/30_encoding.md R68, R73, R74). -/
def formatNibbles (f : Format) : Nat :=
  match f with
  | .event => 2
  | .state => 2
  | .frame => 2
  | .ctdir => 2
  | .iow => 8
  | .ior => 6
  | .app => 1

/-- Every instruction's word has the length of its format, whatever the wire codes. -/
def EncodingLength.Statement (i : Instr) : Prop :=
  ∀ codes : WireCodes, (encode codes i).nibbles.length = formatNibbles (encode codes i).format

theorem EncodingLength.fall (n : Nibble) : EncodingLength.Statement (.fall n) := fun _ => rfl

theorem EncodingLength.hold (n : Nibble) : EncodingLength.Statement (.hold n) := fun _ => rfl

theorem EncodingLength.rise (n : Nibble) : EncodingLength.Statement (.rise n) := fun _ => rfl

theorem EncodingLength.run (n : Nibble) : EncodingLength.Statement (.run n) := fun _ => rfl

theorem EncodingLength.stIdle (n : Nibble) : EncodingLength.Statement (.stIdle n) := fun _ => rfl

theorem EncodingLength.stCycTypeAndDir (n : Nibble) : EncodingLength.Statement (.stCycTypeAndDir n) := fun _ => rfl

theorem EncodingLength.stAddr0 (n : Nibble) : EncodingLength.Statement (.stAddr0 n) := fun _ => rfl

theorem EncodingLength.stAddr1 (n : Nibble) : EncodingLength.Statement (.stAddr1 n) := fun _ => rfl

theorem EncodingLength.stAddr2 (n : Nibble) : EncodingLength.Statement (.stAddr2 n) := fun _ => rfl

theorem EncodingLength.stAddr3 (n : Nibble) : EncodingLength.Statement (.stAddr3 n) := fun _ => rfl

theorem EncodingLength.stDataWrite0 (n : Nibble) : EncodingLength.Statement (.stDataWrite0 n) := fun _ => rfl

theorem EncodingLength.stDataWrite1 (n : Nibble) : EncodingLength.Statement (.stDataWrite1 n) := fun _ => rfl

theorem EncodingLength.stTurnToPeripheral0 (n : Nibble) :
    EncodingLength.Statement (.stTurnToPeripheral0 n) := fun _ => rfl

theorem EncodingLength.stTurnToPeripheral1 (n : Nibble) :
    EncodingLength.Statement (.stTurnToPeripheral1 n) := fun _ => rfl

theorem EncodingLength.stSync (n : Nibble) : EncodingLength.Statement (.stSync n) := fun _ => rfl

theorem EncodingLength.stDataRead0 (n : Nibble) : EncodingLength.Statement (.stDataRead0 n) := fun _ => rfl

theorem EncodingLength.stDataRead1 (n : Nibble) : EncodingLength.Statement (.stDataRead1 n) := fun _ => rfl

theorem EncodingLength.stTurnToHost0 (n : Nibble) : EncodingLength.Statement (.stTurnToHost0 n) := fun _ => rfl

theorem EncodingLength.stTurnToHost1 (n : Nibble) : EncodingLength.Statement (.stTurnToHost1 n) := fun _ => rfl

theorem EncodingLength.stAbort (n : Nibble) : EncodingLength.Statement (.stAbort n) := fun _ => rfl

theorem EncodingLength.peek : EncodingLength.Statement (.peek) := fun _ => rfl

theorem EncodingLength.submit (payload : List Byte) : EncodingLength.Statement (.submit payload) := fun _ => rfl

theorem EncodingLength.frameStart (n : Nibble) : EncodingLength.Statement (.frameStart n) := fun _ => rfl

theorem EncodingLength.frameAbort (n : Nibble) : EncodingLength.Statement (.frameAbort n) := fun _ => rfl

theorem EncodingLength.frameOther (code : Nibble) (n : Nibble) :
    EncodingLength.Statement (.frameOther code n) := fun _ => rfl

theorem EncodingLength.cycMem (d : Direction) (bit0 : Bool) :
    EncodingLength.Statement (.cycMem d bit0) := fun _ => rfl

theorem EncodingLength.cycDma (d : Direction) (bit0 : Bool) :
    EncodingLength.Statement (.cycDma d bit0) := fun _ => rfl

theorem EncodingLength.cycRsvd (d : Direction) (bit0 : Bool) :
    EncodingLength.Statement (.cycRsvd d bit0) := fun _ => rfl

theorem EncodingLength.iowLength (bit0 : Bool) (v : Byte) :
    EncodingLength.Statement (.iowLength bit0 v) := fun _ => rfl

theorem EncodingLength.iowChecksum (bit0 : Bool) (v : Byte) :
    EncodingLength.Statement (.iowChecksum bit0 v) := fun _ => rfl

theorem EncodingLength.iowAck (bit0 : Bool) (v : Byte) : EncodingLength.Statement (.iowAck bit0 v) := fun _ => rfl

theorem EncodingLength.iowPayload (bit0 : Bool) (offset : Byte) (v : Byte) :
    EncodingLength.Statement (.iowPayload bit0 offset v) := fun _ => rfl

theorem EncodingLength.iowNone (bit0 : Bool) (a : Addr) (v : Byte) :
    EncodingLength.Statement (.iowNone bit0 a v) := fun _ => rfl

theorem EncodingLength.iorLength (bit0 : Bool) : EncodingLength.Statement (.iorLength bit0) := fun _ => rfl

theorem EncodingLength.iorChecksum (bit0 : Bool) : EncodingLength.Statement (.iorChecksum bit0) := fun _ => rfl

theorem EncodingLength.iorAck (bit0 : Bool) : EncodingLength.Statement (.iorAck bit0) := fun _ => rfl

theorem EncodingLength.iorPayload (bit0 : Bool) (offset : Byte) :
    EncodingLength.Statement (.iorPayload bit0 offset) := fun _ => rfl

theorem EncodingLength.iorNone (bit0 : Bool) (a : Addr) :
    EncodingLength.Statement (.iorNone bit0 a) := fun _ => rfl

end Sys2Proof.Laws
end

