-- ==== Sys2Proof/Tests/Slice0.lean ====
section
/-! SUPPORT. Tests of the model: ill-formed terms refused, one written word for each row, single steps with the
expected values of spec/95_test_vectors.md and spec/96_edge_traces.md, and for each statement a state and operands
that meet its hypotheses. -/

namespace Sys2Proof.Tests

open Sys2Proof Sys2Proof.Machine Sys2Proof.Safety Sys2Proof.Claims

/-! ## Helpers -/

/-- The next state of an instruction, where there is one. -/
def after (i : Instr) (s : State) : Option State :=
  match exec i s with
  | .next t => some t
  | _ => none

/-- The next state of a step, where there is one. -/
def stepped (s : State) : Option State :=
  match step s with
  | .next t => some t
  | _ => none

/-- The state right after initialisation in another state of the machine, strobe inactive. -/
def at_ (c : CycleState) : State := { State.reset with cycleState := c }

/-- The state in Sync of a cycle. -/
def inSync (d : Direction) (a : Addr) (v : Byte) : State :=
  { State.reset with
    cycleState := .sync, direction := d, address := a, data := v, ladDir := .peripheral,
    ladOut := if d = .read then 0x5#4 else 0x0#4 }

/-- The application owns the buffer, with a message of one byte (scenario A). -/
def owned : State :=
  { State.reset with owner := true, ack := 0xA0#8, length := 0x01#8, buf := [(0, 0x69#8)] }

/-- Another configuration: the frame codes exchanged, IO with the fourth code, writes with a 0, other sync codes. -/
def other : WireCodes :=
  { frameStart := 0xF#4, frameAbort := 0x0#4, cycTypeIo := 0b11#2, cycTypeReserved := 0b00#2, dirWrite := false,
    syncReady := 0x9#4, syncShortWait := 0x6#4, syncLongWait := 0x5#4 }

/-- A line IOR of Length that waited and can go on: the reply of P3 has been submitted. -/
def released : State :=
  { inSync .read 0x0100#16 0x00#8 with
    readOpen := true, length := 0x02#8, ack := 0xA0#8, buf := [(0, 0x12#8), (1, 0x34#8)],
    pending := [.cycle .ior [0x0#4, 0x0#4, 0x0#4, 0x0#4, 0x0#4, 0x1#4]] }

/-- A line IOR of an unmapped address that waits, and then a new frame (T14). -/
def givenUp : State :=
  { inSync .read 0x0103#16 0x00#8 with readOpen := true, pending := [.act (.sample .active 0xF#4)] }

/-- The transport's registers. -/
def regs (s : State) : Byte × Byte × Byte × Bool := (s.length, s.checksumAcc, s.ack, s.owner)

/-! ## Ill-formed terms are refused (R69) -/

theorem test_wf_refuses_other_code_start : (Instr.frameOther 0x0#4 0x2#4).wf {} = false := by decide
theorem test_wf_refuses_other_code_abort : (Instr.frameOther 0xF#4 0x2#4).wf {} = false := by decide
theorem test_wf_refuses_iow_none_of_payload : (Instr.iowNone false 0x00FF#16 0x00#8).wf {} = false := by decide
theorem test_wf_refuses_iow_none_of_ack : (Instr.iowNone false 0x0102#16 0x00#8).wf {} = false := by decide
theorem test_wf_refuses_ior_none_of_payload : (Instr.iorNone true 0x0000#16).wf {} = false := by decide
theorem test_wf_refuses_ior_none_of_length : (Instr.iorNone true 0x0100#16).wf {} = false := by decide
theorem test_wf_refuses_equal_codes :
    ({ frameAbort := 0x0#4 } : WireCodes).wf = false ∧ ({ cycTypeDma := 0b01#2 } : WireCodes).wf = false ∧
    ({ syncError := 0x5#4 } : WireCodes).wf = false := by decide
theorem test_wf_takes_unmapped :
    (Instr.iowNone false 0x0103#16 0x00#8).wf {} = true ∧ (Instr.iorNone true 0xFFFF#16).wf {} = true := by decide

/-! ## One word for each row (R61, R64, R68, R73, R74; spec/96_edge_traces.md T17) -/

theorem test_decode_run : decodeWord {} .event 0 = some (.run 0#4) := by decide
theorem test_decode_fall : decodeWord {} .event 1 = some (.fall 0#4) := by decide
theorem test_decode_rise : decodeWord {} .event 2 = some (.rise 0#4) := by decide
theorem test_decode_hold : decodeWord {} .event 3 = some (.hold 0#4) := by decide
theorem test_decode_stIdle : decodeTableWord 8 0 = some (.stIdle 0#4) := by decide
theorem test_decode_stCycTypeAndDir : decodeTableWord 8 1 = some (.stCycTypeAndDir 0#4) := by decide
theorem test_decode_stAddr0 : decodeTableWord 8 2 = some (.stAddr0 0#4) := by decide
theorem test_decode_stAddr1 : decodeTableWord 8 3 = some (.stAddr1 0#4) := by decide
theorem test_decode_stAddr2 : decodeTableWord 8 4 = some (.stAddr2 0#4) := by decide
theorem test_decode_stAddr3 : decodeTableWord 8 5 = some (.stAddr3 0#4) := by decide
theorem test_decode_stDataWrite0 : decodeTableWord 8 6 = some (.stDataWrite0 0#4) := by decide
theorem test_decode_stDataWrite1 : decodeTableWord 8 7 = some (.stDataWrite1 0#4) := by decide
theorem test_decode_stTurnToPeripheral0 : decodeTableWord 8 8 = some (.stTurnToPeripheral0 0#4) := by decide
theorem test_decode_stTurnToPeripheral1 : decodeTableWord 8 9 = some (.stTurnToPeripheral1 0#4) := by decide
theorem test_decode_stSync : decodeTableWord 8 10 = some (.stSync 0#4) := by decide
theorem test_decode_stDataRead0 : decodeTableWord 8 11 = some (.stDataRead0 0#4) := by decide
theorem test_decode_stDataRead1 : decodeTableWord 8 12 = some (.stDataRead1 0#4) := by decide
theorem test_decode_stTurnToHost0 : decodeTableWord 8 13 = some (.stTurnToHost0 0#4) := by decide
theorem test_decode_stTurnToHost1 : decodeTableWord 8 14 = some (.stTurnToHost1 0#4) := by decide
theorem test_decode_stAbort : decodeTableWord 8 15 = some (.stAbort 0#4) := by decide
theorem test_decode_peek : decodeWord {} .app 0 = some (.peek) := by decide
theorem test_decode_submit : decodeWord {} .app 1 = some (.submit []) := by decide
theorem test_decode_frameStart : decodeWord {} .frame 0x0 = some (.frameStart 0#4) := by decide
theorem test_decode_frameAbort : decodeWord {} .frame 0xF = some (.frameAbort 0#4) := by decide
theorem test_decode_frameOther : decodeWord {} .frame 0xD = some (.frameOther 0xD#4 0#4) := by decide
theorem test_decode_cycMem : decodeWord {} .ctdir 0x06 = some (.cycMem .write false) := by decide
theorem test_decode_cycDma : decodeWord {} .ctdir 0x08 = some (.cycDma .read false) := by decide
theorem test_decode_cycRsvd : decodeWord {} .ctdir 0x0F = some (.cycRsvd .write true) := by decide
theorem test_decode_iowLength : decodeTableWord 32 0x02010010 = some (.iowLength false 0x01#8) := by decide
theorem test_decode_iowChecksum : decodeTableWord 32 0x0201011D = some (.iowChecksum false 0xD1#8) := by decide
theorem test_decode_iowAck : decodeTableWord 32 0x020102FA = some (.iowAck false 0xAF#8) := by decide
theorem test_decode_iowPayload : decodeTableWord 32 0x02000196 = some (.iowPayload false 0x01#8 0x69#8) := by decide
theorem test_decode_iowNone : decodeTableWord 32 0x02010355 = some (.iowNone false 0x0103#16 0x55#8) := by decide
theorem test_decode_iorLength : decodeTableWord 24 0x000100 = some (.iorLength false) := by decide
theorem test_decode_iorChecksum : decodeTableWord 24 0x000101 = some (.iorChecksum false) := by decide
theorem test_decode_iorAck : decodeTableWord 24 0x010102 = some (.iorAck true) := by decide
theorem test_decode_iorPayload : decodeTableWord 24 0x0000FF = some (.iorPayload false 0xFF#8) := by decide
theorem test_decode_iorNone : decodeTableWord 24 0x00FFFF = some (.iorNone false 0xFFFF#16) := by decide
theorem test_decode_refuses_other_cycles :
    decodeTableWord 32 0x00010010 = none ∧ decodeTableWord 32 0x12010010 = none ∧
    decodeTableWord 24 0x020100 = none ∧ decodeTableWord 8 16 = none ∧ decodeWord {} .ctdir 0x02 = none := by decide

/-! ## Other wire codes than the defaults (R4): the rules with these codes, by hand -/

/-- R64, R68: `0xC` is a write of type `0b11` with bit 0 clear. -/
theorem test_other_codes_decode :
    decodeWord other .iow 0xFC010010 = some (.iowLength false 0x01#8) ∧
    decodeWord other .iow 0x02010010 = none := by decide
/-- R64: DMA keeps its code, and a read is the direction bit set. -/
theorem test_other_codes_encode : encode other (.cycDma .read true) = ⟨.ctdir, [0xF#4, 0xB#4], []⟩ := by decide
/-- R84, R91. -/
theorem test_other_codes_rise :
    (after (.rise 0xC#4) { State.reset with codes := other, strobePrev := .active, frameInfo := 0xF#4 }).map
      (fun t => (t.cycleState, t.cycType, t.direction)) = some (.addr0, .io, .write) := by decide
/-- R100. -/
theorem test_other_codes_wait :
    (after (.stSync 0x0#4) { inSync .read 0x0103#16 0x00#8 with codes := other }).map (·.ladPins) =
      some (.driven 0x6#4) := by decide
/-- R72: the host has its byte whatever the codes. -/
theorem test_other_codes_read :
    (after (.iorAck false) { State.reset with codes := other }).map (·.hostRead) = some (some 0xAF#8) := by decide

/-! ## The frame events (vectors T3) -/

/-- T3.1. -/
theorem test_fall_cuts_a_read :
    after (.fall 0x5#4) { inSync .read 0x0103#16 0x00#8 with frameInfo := 0x0#4 } =
      some { inSync .read 0x0103#16 0x00#8 with cycleState := .idle, ladDir := .host, strobePrev := .active } := by
  decide
/-- T3.5. -/
theorem test_hold_overwrites :
    (after (.hold 0xD#4) { State.reset with strobePrev := .active }).map (·.frameInfo) = some 0xD#4 := by decide
/-- T3.6. -/
theorem test_rise_start :
    after (.rise 0x2#4) { State.reset with strobePrev := .active } =
      some { State.reset with direction := .write, cycleState := .addr0 } := by decide
/-- T3.7. -/
theorem test_rise_abort :
    (after (.rise 0x2#4) { State.reset with strobePrev := .active, frameInfo := 0xF#4 }).map (·.cycleState) =
      some .abort := by decide
/-- T3.10. -/
theorem test_run_addr0 :
    after (.run 0x1#4) (at_ .addr0) = some { at_ .addr1 with address := 0x0001#16 } := by decide

/-! ## The state actions (vectors T4) -/

/-- T4.2. -/
theorem test_ctdir_io_write :
    (after (.stCycTypeAndDir 0x3#4) (at_ .cycTypeAndDir)).map (fun t => (t.cycType, t.direction, t.cycleState)) =
      some (.io, .write, .addr0) := by decide
/-- T4.3. -/
theorem test_ctdir_dma_write :
    (after (.stCycTypeAndDir 0xA#4) (at_ .cycTypeAndDir)).map (fun t => (t.cycType, t.direction, t.cycleState)) =
      some (.dma, .write, .idle) := by decide
/-- T4.5. -/
theorem test_addr0 : (after (.stAddr0 0x0#4) { at_ .addr0 with address := 0xBEEF#16 }).map (·.address) =
    some 0xEEF0#16 := by decide
/-- T4.6. -/
theorem test_addr1 : (after (.stAddr1 0x1#4) { at_ .addr1 with address := 0xEEF0#16 }).map (·.address) =
    some 0xEF01#16 := by decide
/-- T4.7. -/
theorem test_addr2 : (after (.stAddr2 0x0#4) { at_ .addr2 with address := 0xEF01#16 }).map (·.address) =
    some 0xF010#16 := by decide
/-- T4.8. -/
theorem test_addr3_read :
    (after (.stAddr3 0x2#4) { at_ .addr3 with address := 0xF010#16 }).map (fun t => (t.address, t.cycleState)) =
      some (0x0102#16, .turnToPeripheral0) := by decide
/-- T4.9. -/
theorem test_addr3_write :
    (after (.stAddr3 0x2#4) { at_ .addr3 with address := 0xF010#16, direction := .write }).map
      (fun t => (t.address, t.cycleState)) = some (0x0102#16, .dataWrite0) := by decide
/-- T4.11. -/
theorem test_data_write0 :
    (after (.stDataWrite0 0x9#4) { at_ .dataWrite0 with data := 0xFF#8 }).map (·.data) = some 0xF9#8 := by decide
/-- T4.12. -/
theorem test_data_write1 :
    (after (.stDataWrite1 0x6#4) { at_ .dataWrite1 with data := 0xF9#8 }).map (·.data) = some 0x69#8 := by decide
/-- T4.14. -/
theorem test_turn_to_peripheral0_read :
    (after (.stTurnToPeripheral0 0x0#4) (at_ .turnToPeripheral0)).map (fun t => (t.ladOut, t.ladPins)) =
      some (0x5#4, .released) := by decide
/-- T4.15. -/
theorem test_turn_to_peripheral1 :
    (after (.stTurnToPeripheral1 0x0#4) { at_ .turnToPeripheral1 with ladOut := 0x5#4 }).map (·.ladPins) =
      some (.driven 0x5#4) := by decide
/-- T4.16. -/
theorem test_sync_write_payload :
    after (.stSync 0xF#4) (inSync .write 0x0000#16 0x69#8) =
      some { inSync .write 0x0000#16 0x69#8 with
        buf := [(0, 0x69#8)], checksumAcc := 0x69#8, cycleState := .turnToHost0 } := by decide
/-- T4.18. -/
theorem test_sync_read_ack :
    after (.stSync 0xF#4) { inSync .read 0x0102#16 0x00#8 with ack := 0xA0#8, checksumAcc := 0x69#8 } =
      some { inSync .read 0x0102#16 0xA0#8 with
        ack := 0xA0#8, owner := true, ladOut := 0x0#4, cycleState := .dataRead0 } := by decide
/-- T4.21. -/
theorem test_data_read0 :
    (after (.stDataRead0 0x0#4) { at_ .dataRead0 with data := 0xA0#8, ladOut := 0x7#4 }).map (·.ladOut) =
      some 0x0#4 := by decide
/-- T4.22. -/
theorem test_data_read1 :
    (after (.stDataRead1 0x0#4) { at_ .dataRead1 with data := 0xA0#8 }).map (·.ladOut) = some 0xA#4 := by decide
/-- P3, rows 13 and 14: the host has the byte 0x02 the lines showed. -/
theorem test_data_read1_host_sees :
    (after (.stDataRead1 0xF#4)
      { at_ .dataRead1 with data := 0x02#8, ladOut := 0x2#4, ladDir := .peripheral }).map
      (fun t => (t.ladPins, t.hostRead)) = some (.driven 0x0#4, some 0x02#8) := by decide
/-- T4.23. -/
theorem test_turn_to_host0 :
    (after (.stTurnToHost0 0x0#4) { at_ .turnToHost0 with ladDir := .peripheral }).map (·.ladPins) =
      some (.driven 0xF#4) := by decide
/-- T4.24. -/
theorem test_turn_to_host1 :
    (after (.stTurnToHost1 0x0#4) { at_ .turnToHost1 with ladDir := .peripheral, ladOut := 0xF#4 }).map
      (fun t => (t.ladPins, t.cycleState, t.ladOut)) = some (.released, .idle, 0xF#4) := by decide
/-- T4.25. -/
theorem test_abort : after (.stAbort 0x7#4) (at_ .abort) = some (at_ .abort) := by decide
/-- T4.26. -/
theorem test_idle : after (.stIdle 0xF#4) (at_ .idle) = some (at_ .idle) := by decide

/-! ## Frames and dropped cycles (T3.6 to T3.9 as whole frames) -/

theorem test_frame_start :
    (after (.frameStart 0x2#4) State.reset).map (fun t => (t.cycleState, t.direction)) =
      some (.addr0, .write) := by decide
theorem test_frame_abort :
    (after (.frameAbort 0x2#4) State.reset).map (fun t => (t.cycleState, t.frameInfo)) =
      some (.abort, 0xF#4) := by decide
theorem test_frame_other :
    (after (.frameOther 0xD#4 0x2#4) State.reset).map (fun t => (t.cycleState, t.frameInfo)) =
      some (.idle, 0xD#4) := by decide
theorem test_cyc_mem :
    (after (.cycMem .write false) State.reset).map (fun t => (t.cycleState, t.cycType, t.direction)) =
      some (.idle, .memory, .write) := by decide
theorem test_cyc_dma :
    (after (.cycDma .read true) State.reset).map (fun t => (t.cycleState, t.cycType, t.direction)) =
      some (.idle, .dma, .read) := by decide
theorem test_cyc_rsvd :
    (after (.cycRsvd .write true) State.reset).map (fun t => (t.cycleState, t.cycType, t.direction)) =
      some (.idle, .reserved, .write) := by decide

/-! ## Write cycles (vectors T5, S6) -/

/-- T5.1. -/
theorem test_iow_length :
    (after (.iowLength false 0x04#8)
      { State.reset with ack := 0xA0#8, length := 0x09#8, checksumAcc := 0x33#8 }).map regs =
      some (0x04#8, 0x00#8, 0xAF#8, false) := by decide
/-- T5.3. -/
theorem test_iow_checksum_pass :
    (after (.iowChecksum false 0x46#8) { State.reset with checksumAcc := 0x46#8 }).map regs =
      some (0x00#8, 0x46#8, 0xA0#8, false) := by decide
/-- T5.4. -/
theorem test_iow_checksum_fail :
    (after (.iowChecksum false 0x70#8) { State.reset with checksumAcc := 0x46#8, ack := 0xA0#8 }).map regs =
      some (0x00#8, 0x46#8, 0xAF#8, false) := by decide
/-- T5.7. -/
theorem test_iow_ack :
    (after (.iowAck false 0x55#8) { State.reset with checksumAcc := 0x12#8 }).map regs =
      some (0x00#8, 0x00#8, 0x55#8, false) := by decide
/-- T5.9. -/
theorem test_iow_payload_wraps :
    (after (.iowPayload false 0xFF#8 0x02#8) { State.reset with checksumAcc := 0xFF#8 }).map
      (fun t => (t.buf, t.checksumAcc)) = some ([(255, 0x02#8)], 0x01#8) := by decide
/-- S6. -/
theorem test_iow_payload_dropped :
    (after (.iowPayload false 0x00#8 0x77#8) owned).map (fun t => (t.buf, regs t)) =
      some (owned.buf, regs owned) := by decide
/-- T5.11. -/
theorem test_iow_none :
    (after (.iowNone false 0x0103#16 0x55#8) State.reset).map (fun t => (t.buf, regs t)) =
      some (State.reset.buf, regs State.reset) := by decide

/-! ## Read cycles (vectors T6) -/

/-- T6.1. -/
theorem test_ior_length :
    (after (.iorLength false) { State.reset with length := 0x04#8, checksumAcc := 0xD1#8 }).map
      (fun t => (t.hostRead, regs t)) = some (some 0x04#8, 0x04#8, 0x00#8, 0xAF#8, false) := by decide
/-- T6.2. -/
theorem test_ior_checksum :
    (after (.iorChecksum false) { State.reset with checksumAcc := 0xD1#8 }).map
      (fun t => (t.hostRead, regs t)) = some (some 0xD1#8, 0x00#8, 0xD1#8, 0xAF#8, false) := by decide
/-- T6.3. -/
theorem test_ior_ack_pass :
    (after (.iorAck false) { State.reset with ack := 0xA0#8, checksumAcc := 0x69#8 }).map
      (fun t => (t.hostRead, regs t)) = some (some 0xA0#8, 0x00#8, 0x00#8, 0xA0#8, true) := by decide
/-- T6.5. -/
theorem test_ior_ack_not_pass :
    (after (.iorAck false) { State.reset with ack := 0x55#8 }).map
      (fun t => (t.hostRead, regs t)) = some (some 0x55#8, 0x00#8, 0x00#8, 0x55#8, false) := by decide
/-- T6.8. -/
theorem test_ior_payload_wraps :
    (after (.iorPayload false 0xFF#8) { State.reset with buf := [(255, 0x80#8)], checksumAcc := 0x80#8 }).map
      (fun t => (t.hostRead, t.checksumAcc)) = some (some 0x80#8, 0x00#8) := by decide
/-- T6.10. -/
theorem test_ior_payload_waits :
    (after (.iorPayload false 0x00#8) owned).map (fun t => (t.hostRead, t.cycleState, t.ladPins)) =
      some (none, .sync, .driven 0x5#4) := by decide
/-- T6.9. -/
theorem test_ior_none :
    (after (.iorNone false 0x1000#16) State.reset).map (fun t => (t.hostRead, t.cycleState, regs t)) =
      some (none, .sync, regs State.reset) := by decide

/-! ## The application (vectors T7) -/

/-- T7.1. -/
theorem test_peek_not_available : (after .peek State.reset).map (·.reply) = some .notAvailable := by decide
/-- T7.2. -/
theorem test_peek_available :
    ((after .peek owned).bind (·.reply.message)) = some [0x69#8] := by decide
/-- T7.5. -/
theorem test_submit :
    (after (.submit [0x12#8, 0x34#8]) { owned with buf := [(0, 0x69#8), (1, 0xEE#8), (2, 0xEE#8)] }).map
      (fun t => (t.buf, t.reply, regs t)) =
      some ([(0, 0x12#8), (1, 0x34#8), (2, 0xEE#8)], .ok, 0x02#8, 0x00#8, 0xA0#8, false) := by decide
/-- T7.4. -/
theorem test_submit_fails : (after (.submit [0x00#8]) State.reset).map (·.reply) = some .failed := by decide

/-! ## The step, and a word placed for it -/

theorem test_step_takes_the_sample :
    stepped { State.reset with pending := [.act (.sample .active 0xF#4), .act .peek] } =
      some { State.reset with strobePrev := .active, pending := [.act .peek] } := by decide
theorem test_step_refuses_a_dropped_word :
    stepped { State.reset with pending := [.cycle .iow [0x0#4]] } = none := by decide
/-- P3, row 12: the line goes on before the next line IOR. -/
theorem test_line_goes_on :
    (stepped released).map (fun t => (t.cycleState, t.data, t.ladOut, t.pending == released.pending)) =
      some (.dataRead0, 0x02#8, 0x0#4, true) := by decide
/-- P3: the line of a read that waits is open, with no byte yet. -/
theorem test_waiting_line_is_open :
    (after (.iorLength false) owned).map (fun t => (t.readOpen, t.hostRead)) = some (true, none) := by decide
/-- T14, row 12: a read that cannot succeed is given up at the next frame. -/
theorem test_line_is_given_up :
    (stepped givenUp).map (fun t => (t.cycleState, t.ladDir, t.readOpen, t.pending)) =
      some (.idle, .host, false, []) := by decide
theorem test_placed_write_runs :
    stepped (State.reset.withFetchWord 32 0x02000096) = after (.iowPayload false 0x00#8 0x69#8) State.reset := by
  decide
theorem test_placed_state_runs :
    (stepped (State.reset.withFetchWord 8 3)).map (·.cycleState) = some .addr2 := by decide

/-! ## Invariant witnesses -/

/-- The reset state keeps the decoder's invariant. -/
theorem reset_decoderOk : DecoderOk State.reset :=
  ⟨by decide, by decide, by decide, by decide, (by intro d h; cases h), (by intro n h; cases h)⟩

/-- So does a read that waits in Sync, where the block drives. -/
theorem waiting_decoderOk : DecoderOk (inSync .read 0x0103#16 0x00#8) :=
  ⟨by decide, by decide, by decide, by decide, (by intro d h; cases h), (by intro n h; cases h; rfl)⟩

theorem reset_bufferOk : BufferOk State.reset := rfl

theorem owned_bufferOk : BufferOk owned := rfl

theorem owned_handoffOk : HandoffOk owned := fun _ => ⟨rfl, rfl⟩

/-! ## Witnesses: for each statement with hypotheses, operands and a state that meet them -/

theorem witness_DecodeReadsWhatEncodeWrites :
    ({} : WireCodes).wf = true ∧ other.wf = true ∧
    (Instr.frameOther 0x1#4 0x2#4).wf {} = true ∧ (Instr.frameOther 0xE#4 0x2#4).wf other = true ∧
    (Instr.iowNone false 0x0103#16 0x55#8).wf {} = true ∧ (Instr.iorNone true 0xFFFF#16).wf {} = true := by decide
theorem witness_DecodedPacketsAreEncodings :
    other.wf = true ∧ decode other ⟨.app, [1#4], [0x12#8]⟩ = .ok (.submit [0x12#8]) := ⟨by decide, rfl⟩
theorem witness_MaskAndMatchSelectTheCycleRows :
    0x03010010#32 &&& 0xFEFFFF00#32 = 0x02010000#32 ∧ 0x0201011D#32 &&& 0xFEFFFF00#32 = 0x02010100#32 ∧
    0x020102FA#32 &&& 0xFEFFFF00#32 = 0x02010200#32 ∧ 0x0200FF20#32 &&& 0xFEFF0000#32 = 0x02000000#32 ∧
    0x02010355#32 &&& 0xFE000000#32 = 0x02000000#32 ∧ 0x02010355#32 &&& 0xFEFFFF00#32 = 0x02010300#32 ∧
    0x02010355#32 &&& 0xFEFF0000#32 = 0x02010000#32 ∧
    0x000100#24 &&& 0xFEFFFF#24 = 0x000100#24 ∧ 0x010101#24 &&& 0xFEFFFF#24 = 0x000101#24 ∧
    0x000102#24 &&& 0xFEFFFF#24 = 0x000102#24 ∧ 0x0000FF#24 &&& 0xFEFF00#24 = 0x000000#24 ∧
    0x00FFFF#24 &&& 0xFE0000#24 = 0x000000#24 ∧ 0x00FFFF#24 &&& 0xFEFFFF#24 = 0x00FFFF#24 ∧
    0x00FFFF#24 &&& 0xFEFF00#24 = 0x00FF00#24 := by decide
theorem witness_StepRunsTheDecodedInstruction :
    decode State.reset.codes (fetchPacket { State.reset with pending := [.act .peek] }) = .ok .peek ∧
    decode State.reset.codes (fetchPacket { State.reset with pending := [.cycle .iow []] }) = .error (.badShape .iow) := ⟨rfl, rfl⟩
theorem witness_EdgeProcedureInTheSourceOrder :
    ({ State.reset with pending := [.act (.sample .active 0x0#4)] } : State).pending =
      .act (.sample .active 0x0#4) :: [] ∧
    readGoesOn { State.reset with pending := [.act (.sample .active 0x0#4)] } = false ∧
    ({ State.reset with pending := [.act (.sample .inactive 0x2#4)], strobePrev := .active } : State).strobePrev =
      .active := ⟨rfl, rfl, rfl⟩
theorem witness_CallsAndCyclesAreFetched :
    ({ State.reset with pending := [.act .peek] } : State).pending = .act .peek :: [] ∧
    ({ State.reset with pending := [.act (.submit [])] } : State).pending = .act (.submit []) :: [] ∧
    ({ State.reset with pending := [.cycle .iow [0x0#4, 0x2#4, 0x0#4, 0x1#4, 0x0#4, 0x0#4, 0x1#4, 0x0#4]] } :
      State).pending = .cycle .iow [State.reset.codes.frameStart,
        State.reset.codes.cycTypeIo ++
          (BitVec.ofBool State.reset.codes.dirWrite ++ BitVec.ofBool false : BitVec 2), (0x0100#16).extractLsb' 12 4,
        (0x0100#16).extractLsb' 8 4, (0x0100#16).extractLsb' 4 4, (0x0100#16).extractLsb' 0 4,
        (0x01#8).extractLsb' 0 4, (0x01#8).extractLsb' 4 4] :: [] ∧
    ({ State.reset with pending := [.cycle .ior [0x0#4, 0x0#4, 0x0#4, 0x1#4, 0x0#4, 0x2#4]] } :
      State).pending = .cycle .ior [State.reset.codes.frameStart,
        State.reset.codes.cycTypeIo ++
          (BitVec.ofBool (!State.reset.codes.dirWrite) ++ BitVec.ofBool false : BitVec 2), (0x0102#16).extractLsb' 12 4,
        (0x0102#16).extractLsb' 8 4, (0x0102#16).extractLsb' 4 4, (0x0102#16).extractLsb' 0 4] :: [] ∧
    readGoesOn { State.reset with pending := [.cycle .ior [0x0#4, 0x0#4, 0x0#4, 0x1#4, 0x0#4, 0x2#4]] } = false ∧
    readGoesOn { State.reset with pending := [.act .peek] } = false ∧ readGoesOn released = true := by decide
theorem witness_PlacedTableWordRunsNext :
    decodeWord State.reset.codes .iow 0x02000096 = some (.iowPayload false 0x00#8 0x69#8) ∧
    decodeWord State.reset.codes .ior 0x000102 = some (.iorAck false) ∧
    decodeWord State.reset.codes .state 15 = some (.stAbort 0#4) := by decide
theorem witness_RiseSelectsAndActs :
    State.reset.frameInfo = State.reset.codes.frameStart ∧
    ({ State.reset with frameInfo := 0xF#4 } : State).frameInfo ≠ State.reset.codes.frameStart ∧
    ({ State.reset with frameInfo := 0xF#4 } : State).frameInfo = State.reset.codes.frameAbort ∧
    ({ State.reset with frameInfo := 0x1#4 } : State).frameInfo ≠ State.reset.codes.frameStart ∧
    ({ State.reset with frameInfo := 0x1#4 } : State).frameInfo ≠ State.reset.codes.frameAbort := by decide
theorem witness_RunPerformsTheActionOfTheState :
    State.reset.strobePrev = .inactive ∧ State.reset.cycleState = .idle ∧ (at_ .abort).cycleState = .abort := by
  decide
theorem witness_TheLastHoldOfAFrameDecides : State.reset.strobePrev = .inactive := rfl
theorem witness_UnconsumedNibblesDoNotMatter :
    State.reset.strobePrev = .inactive ∧ consumes (actingState (at_ .sync)) = false ∧
    consumes (actingState { State.reset with strobePrev := .active, frameInfo := 0xF#4 }) = false := by decide
theorem witness_CtdirNibbleIsDecoded :
    State.reset.codes.wf = true ∧ (0x3#4).extractLsb' 2 2 = State.reset.codes.cycTypeIo ∧
    (0x4#4).extractLsb' 2 2 = State.reset.codes.cycTypeMemory ∧
    (0xB#4).extractLsb' 2 2 = State.reset.codes.cycTypeDma ∧
    (0xC#4).extractLsb' 2 2 = State.reset.codes.cycTypeReserved := by decide
theorem witness_TurnaroundToThePeripheral :
    exec (.stTurnToPeripheral1 0x0#4) (at_ .turnToPeripheral1) =
      .next { at_ .sync with ladDir := .peripheral } := rfl
theorem witness_SyncReadsByAddress :
    (inSync .read 0x0100#16 0x00#8).direction = .read ∧ { inSync .read 0x0100#16 0x00#8 with owner := true }.owner =
      true ∧ (inSync .read 0x0100#16 0x00#8).owner = false ∧
    0x0103#16 ≤ (inSync .read 0x0103#16 0x00#8).address ∧ 0x0103#16 ≤ (inSync .read 0xFFFF#16 0x00#8).address ∧
    (inSync .read 0x0101#16 0x00#8).address = 0x0101#16 ∧ (inSync .read 0x0102#16 0x00#8).address = 0x0102#16 ∧
    (inSync .read 0x00FF#16 0x00#8).address ≤ 0x00FF#16 ∧ (inSync .read 0x0000#16 0x00#8).address ≤ 0x00FF#16 := by
  decide
theorem witness_SyncWritesByAddress :
    (inSync .write 0x0100#16 0x00#8).direction = .write ∧ { inSync .write 0x0100#16 0x00#8 with owner := true }.owner =
      true ∧ (inSync .write 0x0100#16 0x00#8).owner = false ∧
    0x0103#16 ≤ (inSync .write 0x0103#16 0x00#8).address ∧ 0x0103#16 ≤ (inSync .write 0xFFFF#16 0x00#8).address ∧
    (inSync .write 0x0101#16 0x00#8).address = 0x0101#16 ∧ (inSync .write 0x0102#16 0x00#8).address = 0x0102#16 ∧
    (inSync .write 0x00FF#16 0x00#8).address ≤ 0x00FF#16 ∧
    (inSync .write 0x0000#16 0x00#8).address ≤ 0x00FF#16 := by decide
theorem witness_ReadDataAndRelease :
    exec (.stTurnToHost1 0x0#4) { at_ .turnToHost1 with ladDir := .peripheral } = .next (at_ .idle) := rfl
theorem witness_AbortAndIdleAreNoOps : (at_ .abort).cycleState = .abort ∧ (at_ .idle).cycleState = .idle := by
  decide
theorem witness_FrameCodesSelect :
    State.reset.codes.wf = true ∧
    (0x1#4 ≠ State.reset.codes.frameStart ∧ 0x1#4 ≠ State.reset.codes.frameAbort) ∧
    (0xE#4 ≠ State.reset.codes.frameStart ∧ 0xE#4 ≠ State.reset.codes.frameAbort) := by decide
theorem witness_OtherCycleTypesAreDropped :
    State.reset.codes.wf = true ∧ ({ State.reset with codes := other } : State).codes.wf = true := by decide
theorem witness_WriteOfLength : State.reset.owner = false := rfl
theorem witness_WriteOfChecksum : State.reset.owner = false := rfl
theorem witness_WriteOfAck : State.reset.owner = false := rfl
theorem witness_WriteOfPayload : State.reset.owner = false ∧ BufferOk State.reset := ⟨rfl, rfl⟩
theorem witness_WriteOfAnyOtherAddress : 0x0103#16 ≤ 0x0103#16 ∧ 0x0103#16 ≤ 0xFFFF#16 := by decide
theorem witness_WritesAreDroppedWhileTheApplicationOwns : owned.owner = true := rfl
theorem witness_DecoderIntegration : State.reset.strobePrev = .inactive := rfl
theorem witness_ReadOfLength : State.reset.owner = false := rfl
theorem witness_ReadOfChecksum : State.reset.owner = false := rfl
theorem witness_ReadOfAck : State.reset.owner = false := rfl
theorem witness_ReadOfPayload : State.reset.owner = false := rfl
theorem witness_ReadOfAnyOtherAddress : 0x0103#16 ≤ 0x0103#16 ∧ 0x0103#16 ≤ 0xFFFF#16 := by decide
theorem witness_ReadsWaitWhileTheApplicationOwns : owned.owner = true := rfl
theorem witness_WhatTheBusShows :
    State.reset.strobePrev = .inactive ∧ State.reset.owner = false ∧ 0x0102#16 < 0x0103#16 ∧
    owned.strobePrev = .inactive ∧ owned.owner = true ∧ 0x0103#16 ≤ 0x0103#16 := by decide
theorem witness_PeekReturnsTheMessage : owned.owner = true ∧ State.reset.owner = false := ⟨rfl, rfl⟩
theorem witness_SubmitHandsTheReplyOver :
    owned.owner = true ∧ BufferOk owned ∧ (List.replicate 255 0x01#8).length ≤ 255 ∧
    ([] : List Byte).length ≤ 255 := ⟨rfl, rfl, by rw [List.length_replicate], by decide⟩
theorem witness_SubmitFails :
    State.reset.owner = false ∧ 256 < (List.replicate 257 0x01#8).length := ⟨rfl, by rw [List.length_replicate]; decide⟩
theorem witness_SubmitOfTheWholeBuffer :
    owned.owner = true ∧ BufferOk owned ∧ (List.replicate 256 0x01#8).length = 256 :=
  ⟨rfl, rfl, List.length_replicate⟩
theorem witness_PeeksAreRepeatable : owned.owner = true := rfl
theorem witness_TheHostCannotTouchWhatTheApplicationOwns : owned.owner = true := rfl
theorem witness_OwnershipMovesOnlyAtTheTwoHandoffs :
    (after (Instr.ofEvent .inactive .inactive 0x0#4) { inSync .read 0x0102#16 0x00#8 with ack := 0xA0#8 }).map
      (·.owner) = some true ∧ (after (.submit []) owned).map (·.owner) = some false := by decide
theorem witness_TheLinesAreDrivenByTheirRulesOnly :
    (after (Instr.ofEvent .inactive .inactive 0x0#4) (at_ .turnToHost0)).map (·.ladOut) = some 0xF#4 ∧
    (after (Instr.ofEvent .inactive .inactive 0x0#4) (at_ .turnToPeripheral1)).map (·.ladDir) =
      some .peripheral := by decide
theorem witness_PayloadReadsBackWhatWasWritten : State.reset.owner = false ∧ BufferOk State.reset := ⟨rfl, rfl⟩
theorem witness_WritePassChecksum : State.reset.owner = false := rfl
theorem witness_ReadPassChecksum : State.reset.owner = false := rfl
theorem witness_SubmittedMessagesRoundTrip :
    owned.owner = true ∧ HandoffOk owned ∧ BufferOk owned ∧ [0x12#8, 0x34#8].length ≤ 255 ∧
    (([0x01#8, 0x00#8] : List Byte).map BitVec.toNat).Perm (List.range [0x12#8, 0x34#8].length) :=
  ⟨rfl, owned_handoffOk, rfl, by decide, by decide⟩
theorem witness_AWaitingReadChangesNothing :
    (inSync .read 0x0103#16 0x00#8).cycleState = .sync ∧ (inSync .read 0x0103#16 0x00#8).direction = .read ∧
    (inSync .read 0x0103#16 0x00#8).strobePrev = .inactive ∧
    (inSync .read 0x0103#16 0x00#8).ladOut = (inSync .read 0x0103#16 0x00#8).codes.syncShortWait ∧
    0x0103#16 ≤ (inSync .read 0x0103#16 0x00#8).address ∧
    { inSync .read 0x0100#16 0x00#8 with owner := true }.owner = true := by decide
theorem witness_SubmitReleasesAWaitingRead :
    { inSync .read 0x0100#16 0x00#8 with owner := true }.cycleState = .sync ∧
    { inSync .read 0x0100#16 0x00#8 with owner := true }.direction = .read ∧
    { inSync .read 0x0100#16 0x00#8 with owner := true }.strobePrev = .inactive ∧
    { inSync .read 0x0100#16 0x00#8 with owner := true }.owner = true ∧
    { inSync .read 0x0100#16 0x00#8 with owner := true }.address = 0x0100#16 ∧ [0x12#8].length ≤ 255 := by decide
/-- The second clause: at both ends of its addresses. -/
theorem witness_SubmitReleasesAWaitingRead_line :
    released.readOpen = true ∧ released.cycleState = .sync ∧ released.direction = .read ∧
    released.strobePrev = .inactive ∧ released.ladDir = .peripheral ∧ { released with owner := true }.owner = true ∧
    released.address < 0x0103#16 ∧ { released with address := 0x0000#16 }.address < 0x0103#16 ∧
    { released with address := 0x0102#16 }.address < 0x0103#16 ∧ [0x12#8, 0x34#8].length ≤ 255 ∧
    { released with pending := .act (.submit [0x12#8, 0x34#8]) :: released.pending }.pending =
      .act (.submit [0x12#8, 0x34#8]) :: released.pending := by decide
theorem witness_AckStaysPassAcrossASubmit :
    owned.owner = true ∧ HandoffOk owned ∧ [0x12#8].length ≤ 255 := ⟨rfl, owned_handoffOk, by decide⟩
theorem witness_LaunchedStatesAreSafe :
    ({ buf := [(0, 0x69#8), (255, 0x01#8)], codes := other } : Launch).buf.wf = true ∧
    ({ buf := [(0, 0x69#8), (255, 0x01#8)], codes := other } : Launch).codes.wf = true := by decide
theorem witness_StepsKeepTheDecoderInvariant :
    DecoderOk { inSync .read 0x0103#16 0x00#8 with pending := [.act (.sample .inactive 0x0#4)] } ∧
    step { inSync .read 0x0103#16 0x00#8 with pending := [.act (.sample .inactive 0x0#4)] } =
      .next (inSync .read 0x0103#16 0x00#8) :=
  ⟨waiting_decoderOk, rfl⟩
theorem witness_StepsKeepTheHandoffInvariant :
    HandoffOk { owned with pending := [.act .peek] } ∧
    step { owned with pending := [.act .peek] } = .next { owned with reply := .available owned.buf owned.length } :=
  ⟨owned_handoffOk, rfl⟩
theorem witness_StepsKeepTheBufferCanonical :
    BufferOk { State.reset with pending := [.act .peek] } ∧
    step { State.reset with pending := [.act .peek] } = .next { State.reset with reply := .notAvailable } :=
  ⟨rfl, rfl⟩

end Sys2Proof.Tests
end

section
/-! PROOFS. The frame sampler (spec/40_frame_sampler.md R82 to R85): what each EVENT row runs, the target of a frame
code, the STATE row that is the action of a state, and the statements about the four frame events. -/

namespace Sys2Proof.Machine

/-! ### Writes that change nothing -/

theorem State.goto_self {s : State} {c : CycleState} (h : s.cycleState = c) : s.goto c = s := by
  subst h
  rfl

theorem State.setStrobePrev_self {s : State} {p : Strobe} (h : s.strobePrev = p) : s.setStrobePrev p = s := by
  subst h
  rfl

/-! ### The EVENT rows -/

theorem exec_fall (n : Nibble) (s : State) : exec (.fall n) s = .next (frameReset (s.setStrobePrev .active)) := rfl

theorem exec_hold (n : Nibble) (s : State) :
    exec (.hold n) s = .next ((s.setStrobePrev .active).setFrameInfo n) := rfl

theorem exec_rise (n : Nibble) (s : State) :
    exec (.rise n) s =
      .next (stateStep n ((s.setStrobePrev .inactive).goto (frameTarget s.codes s.frameInfo))) := rfl

theorem exec_run (n : Nibble) (s : State) : exec (.run n) s = .next (stateStep n (s.setStrobePrev .inactive)) := rfl

/-! ### The target of a frame code (R63, R84) -/

theorem frameTarget_start {codes : WireCodes} {code : Nibble} (h : code = codes.frameStart) :
    frameTarget codes code = .cycTypeAndDir := if_pos h

theorem frameTarget_abort {codes : WireCodes} {code : Nibble} (hs : code ≠ codes.frameStart)
    (ha : code = codes.frameAbort) : frameTarget codes code = .abort := by
  rw [frameTarget, if_neg hs, if_pos ha]

theorem frameTarget_other {codes : WireCodes} {code : Nibble} (hs : code ≠ codes.frameStart)
    (ha : code ≠ codes.frameAbort) : frameTarget codes code = .idle := by
  rw [frameTarget, if_neg hs, if_neg ha]

/-! ### The action of a state (R90) -/

/-- The STATE row of the current state is the action that `stateStep` runs. -/
theorem exec_ofState {s : State} {c : CycleState} (h : s.cycleState = c) (n : Nibble) :
    exec (Instr.ofState c n) s = .next (stateStep n s) := by
  cases c <;> simp only [stateStep, h] <;> rfl

theorem stateStep_idle {s : State} (h : s.cycleState = .idle) (n : Nibble) : stateStep n s = s := by
  simp only [stateStep, h, State.goto_self h]

theorem stateStep_abort {s : State} (h : s.cycleState = .abort) (n : Nibble) : stateStep n s = s := by
  simp only [stateStep, h, State.goto_self h]

/-! ### The statements -/

/-- Settles O10: FALL is the frame-strobe reset, which writes two registers, after the strobe's own. -/
theorem fallResetsTheMachine : Obligations.FallResetsTheMachine := by
  intro n s
  rw [exec_fall, frameReset_eq]
  rfl

/-- Settles O11: the two writes of HOLD, as one record update. -/
theorem holdLatchesTheFrameCode : Obligations.HoldLatchesTheFrameCode := by
  intro n s
  rw [exec_hold]
  rfl

/-- Settles O12: the latched code picks the target, and the target's action is CycTypeAndDir's or nothing; no state
action writes the sampler's two registers (`stateStep_frame`). -/
theorem riseSelectsAndActs : Obligations.RiseSelectsAndActs := by
  intro n s
  refine ⟨fun hstart => ?start, fun hs habort => ?abort, fun hs ha => ?other, ?frame⟩
  case start =>
    rw [exec_rise, frameTarget_start hstart]
    exact (exec_ofState (State.goto_cycleState (s.setStrobePrev .inactive) .cycTypeAndDir) n).symm
  case abort =>
    rw [exec_rise, frameTarget_abort hs habort, stateStep_abort (State.goto_cycleState ..)]
    rfl
  case other =>
    rw [exec_rise, frameTarget_other hs ha, stateStep_idle (State.goto_cycleState ..)]
    rfl
  case frame =>
    obtain ⟨hstrobe, hinfo, -⟩ :=
      stateStep_frame n ((s.setStrobePrev .inactive).goto (frameTarget s.codes s.frameInfo))
    exact ⟨_, exec_rise n s, hstrobe, hinfo⟩

/-- Settles O13: the row of the current state is its action (`exec_ofState`), and that of Idle and of Abort is no
write. -/
theorem runPerformsTheActionOfTheState : Obligations.RunPerformsTheActionOfTheState := by
  intro n s
  refine ⟨?row, exec_run n s, fun hstrobe hstate => ?still⟩
  case row =>
    have hrow := exec_ofState (State.setStrobePrev_cycleState s .inactive) n
    exact (exec_run n s).trans hrow.symm
  case still =>
    rw [exec_run, State.setStrobePrev_self hstrobe]
    rcases hstate with hidle | habort
    · rw [stateStep_idle hidle]
    · rw [stateStep_abort habort]

end Sys2Proof.Machine
end

section
/-! PROOFS. The cycle state machine (spec/41_cycle_state_machine.md R91 to R99, R105, R106): what each STATE row up to
the turnaround runs, the operand and target functions those rows use, and the statements about them. -/

namespace Sys2Proof.Machine

open Sys2Proof.Claims

/-! ### The STATE rows -/

theorem exec_stIdle (n : Nibble) (s : State) : exec (.stIdle n) s = .next (s.goto .idle) := rfl

theorem exec_stAbort (n : Nibble) (s : State) : exec (.stAbort n) s = .next (s.goto .abort) := rfl

theorem exec_stCycTypeAndDir (n : Nibble) (s : State) :
    exec (.stCycTypeAndDir n) s = .next (actCycTypeAndDir n s) := rfl

theorem exec_stAddr0 (n : Nibble) (s : State) : exec (.stAddr0 n) s = .next (actAddr .addr1 n s) := rfl

theorem exec_stAddr1 (n : Nibble) (s : State) : exec (.stAddr1 n) s = .next (actAddr .addr2 n s) := rfl

theorem exec_stAddr2 (n : Nibble) (s : State) : exec (.stAddr2 n) s = .next (actAddr .addr3 n s) := rfl

theorem exec_stAddr3 (n : Nibble) (s : State) : exec (.stAddr3 n) s = .next (actAddr3 n s) := rfl

theorem exec_stDataWrite0 (n : Nibble) (s : State) : exec (.stDataWrite0 n) s = .next (actDataWrite0 n s) := rfl

theorem exec_stDataWrite1 (n : Nibble) (s : State) : exec (.stDataWrite1 n) s = .next (actDataWrite1 n s) := rfl

theorem exec_stTurnToPeripheral0 (n : Nibble) (s : State) :
    exec (.stTurnToPeripheral0 n) s = .next (actDrive (turnCode s.codes s.direction) .turnToPeripheral1 s) := rfl

theorem exec_stTurnToPeripheral1 (n : Nibble) (s : State) :
    exec (.stTurnToPeripheral1 n) s = .next (actTurn .peripheral .sync s) := rfl

/-! ### Rows in a row -/

@[simp] theorem runAll_nil (s : State) : runAll [] s = .next s := rfl

/-- An instruction that completes hands its next state to the rest. -/
theorem runAll_cons {i : Instr} {s t : State} (h : exec i s = .next t) (rest : List Instr) :
    runAll (i :: rest) s = runAll rest t := by
  rw [runAll, h]

/-! ### What the direction selects (R95, R98) -/

theorem addrTarget_eq_ite (d : Direction) :
    addrTarget d = if d = .write then .dataWrite0 else .turnToPeripheral0 := by
  cases d <;> rfl

theorem turnCode_eq_ite (codes : WireCodes) (d : Direction) :
    turnCode codes d = if d = .read then codes.syncShortWait else codes.syncReady := by
  cases d <;> rfl

/-! ### The actions -/

/-- R91 for a nibble whose type bits are the code of `t`. -/
theorem actCycTypeAndDir_of_code {s : State} (hwf : s.codes.wf = true) {n : Nibble} {t : CycleType}
    (hcode : n.extractLsb' 2 2 = typeCode s.codes t) :
    actCycTypeAndDir n s =
      ((s.setCycType t).setDirection (ctdirDirection s.codes n)).goto (ctdirTarget t) := by
  rw [actCycTypeAndDir, ctdirType_of_code hwf hcode]

theorem actAddr3_eq (n : Nibble) (s : State) :
    actAddr3 n s = (s.setAddress (shiftIn s.address n)).goto
      (if s.direction = .write then .dataWrite0 else .turnToPeripheral0) := by
  rw [actAddr3, actAddr, addrTarget_eq_ite]

/-- The four address actions write the four nibbles over the old address. -/
theorem actAddr_four (n1 n2 n3 n4 : Nibble) (s : State) :
    actAddr3 n4 (actAddr .addr3 n3 (actAddr .addr2 n2 (actAddr .addr1 n1 s))) =
      (s.setAddress (joinAddr n1 n2 n3 n4)).goto
        (if s.direction = .write then .dataWrite0 else .turnToPeripheral0) := by
  rw [actAddr3_eq, ← shiftIn_four s.address]
  rfl

/-- The low nibble is the one written first, and the high nibble takes the place of the old one. -/
theorem withHighNibble_withLowNibble (b : Byte) (hi lo : Nibble) :
    withHighNibble (withLowNibble b lo) hi = joinNibbles hi lo := by
  rw [withHighNibble, withLowNibble, lowNibble_join]

/-- The two data actions write the two nibbles over the old byte. -/
theorem actDataWrite_two (lo hi : Nibble) (s : State) :
    actDataWrite1 hi (actDataWrite0 lo s) = (s.setData (joinNibbles hi lo)).goto .turnToPeripheral0 := by
  rw [← withHighNibble_withLowNibble s.data]
  rfl

/-- Once the lines are turned to the block they show the latch. -/
theorem actTurn_peripheral_ladPins (next : CycleState) (s : State) :
    (actTurn .peripheral next s).ladPins = .driven s.ladOut := by
  rw [ladPins_of_peripheral _ rfl]
  rfl

/-! ### The statements -/

/-- Settles O17: each row is one `shiftIn`, and four of them leave nothing of the old address (`shiftIn_four`). -/
theorem addressNibblesAreAssembled : Obligations.AddressNibblesAreAssembled := by
  refine ⟨fun n s => ⟨exec_stAddr0 n s, exec_stAddr1 n s, exec_stAddr2 n s, ?last⟩, fun n1 n2 n3 n4 s => ?four⟩
  case last =>
    rw [exec_stAddr3, actAddr3_eq]
    rfl
  case four =>
    rw [runAll_cons (exec_stAddr0 ..), runAll_cons (exec_stAddr1 ..), runAll_cons (exec_stAddr2 ..),
      runAll_cons (exec_stAddr3 ..), runAll_nil, actAddr_four]
    rfl

/-- Settles O18: each row writes one nibble and keeps the other, so the two rows leave nothing of the old byte. -/
theorem dataNibblesAreAssembled : Obligations.DataNibblesAreAssembled := by
  refine ⟨fun n s => ⟨exec_stDataWrite0 n s, exec_stDataWrite1 n s⟩, fun lo hi s => ?both⟩
  rw [runAll_cons (exec_stDataWrite0 ..), runAll_cons (exec_stDataWrite1 ..), runAll_nil, actDataWrite_two]
  rfl

/-- Settles O16: distinct codes make the type bits name one cycle type (`actCycTypeAndDir_of_code`), whose target is
Addr0 for IO and Idle for the three others. -/
theorem ctdirNibbleIsDecoded : Obligations.CtdirNibbleIsDecoded := by
  intro n s hwf
  have decoded (t : CycleType) (hcode : n.extractLsb' 2 2 = typeCode s.codes t) :
      exec (.stCycTypeAndDir n) s =
        .next (((s.setCycType t).setDirection (ctdirDirection s.codes n)).goto (ctdirTarget t)) := by
    rw [exec_stCycTypeAndDir, actCycTypeAndDir_of_code hwf hcode]
  exact ⟨decoded .io, decoded .memory, decoded .dma, decoded .reserved⟩

/-- Settles O19: the code latched is that of the direction (`turnCode_eq_ite`), and after the turn the lines show the
latch. -/
theorem turnaroundToThePeripheral : Obligations.TurnaroundToThePeripheral := by
  intro n s
  refine ⟨?latch, exec_stTurnToPeripheral1 n s, fun t hturn => ?shown⟩
  case latch =>
    rw [exec_stTurnToPeripheral0, turnCode_eq_ite]
    rfl
  case shown =>
    rw [exec_stTurnToPeripheral1] at hturn
    cases hturn
    exact actTurn_peripheral_ladPins .sync s

/-- Settles O23: each of the two actions writes the state it runs in (`State.goto_self`). -/
theorem abortAndIdleAreNoOps : Obligations.AbortAndIdleAreNoOps := by
  intro n s
  refine ⟨fun habort => ?abort, fun hidle => ?idle⟩
  case abort => rw [exec_stAbort, State.goto_self habort]
  case idle => rw [exec_stIdle, State.goto_self hidle]

end Sys2Proof.Machine
end

section
/-! PROOFS. The host's writes (spec/42_transport_write.md R110 to R116): the write handler by its address, the action
of Sync in a write, and the statement about it. -/

namespace Sys2Proof.Machine

/-! ### The write handler, by its address -/

/-- R111: the ownership gate comes before the address. -/
theorem transportWrite_owned {s : State} (howner : s.owner = true) (a : Addr) (v : Byte) :
    transportWrite a v s = s := if_pos howner

/-- Past the ownership gate the address alone selects (R110). -/
theorem transportWrite_of_host {s : State} (howner : s.owner = false) (a : Addr) (v : Byte) :
    transportWrite a v s =
      if a = Config.addrLength then writeLength v s
      else if a = Config.addrChecksum then writeChecksum v s
      else if a = Config.addrAck then writeAck v s
      else if a ≤ Config.bufLast then writePayload a v s
      else s :=
  if_neg (by simp only [howner, Bool.false_eq_true, not_false_eq_true])

theorem transportWrite_length {s : State} (howner : s.owner = false) {a : Addr} (ha : a = Config.addrLength)
    (v : Byte) : transportWrite a v s = writeLength v s := by
  rw [transportWrite_of_host howner, if_pos ha]

theorem transportWrite_checksum {s : State} (howner : s.owner = false) {a : Addr} (ha : a = Config.addrChecksum)
    (v : Byte) : transportWrite a v s = writeChecksum v s := by
  subst ha
  rw [transportWrite_of_host howner, if_neg (by decide), if_pos rfl]

theorem transportWrite_ack {s : State} (howner : s.owner = false) {a : Addr} (ha : a = Config.addrAck)
    (v : Byte) : transportWrite a v s = writeAck v s := by
  subst ha
  rw [transportWrite_of_host howner, if_neg (by decide), if_neg (by decide), if_pos rfl]

theorem transportWrite_payload {s : State} (howner : s.owner = false) {a : Addr} (ha : a ≤ Config.bufLast)
    (v : Byte) : transportWrite a v s = writePayload a v s := by
  have hlength : a ≠ Config.addrLength := by bv_omega
  have hchecksum : a ≠ Config.addrChecksum := by bv_omega
  have hack : a ≠ Config.addrAck := by bv_omega
  rw [transportWrite_of_host howner, if_neg hlength, if_neg hchecksum, if_neg hack, if_pos ha]

/-- R116: past the last control register the handler does nothing, whoever owns the buffer. -/
theorem transportWrite_above {a : Addr} (ha : 0x0103#16 ≤ a) (v : Byte) (s : State) :
    transportWrite a v s = s := by
  cases howner : s.owner with
  | true => exact transportWrite_owned howner a v
  | false =>
    have hlength : a ≠ Config.addrLength := by bv_omega
    have hchecksum : a ≠ Config.addrChecksum := by bv_omega
    have hack : a ≠ Config.addrAck := by bv_omega
    have hpayload : ¬ a ≤ Config.bufLast := by bv_omega
    rw [transportWrite_of_host howner, if_neg hlength, if_neg hchecksum, if_neg hack, if_neg hpayload]

/-- A payload address is its own offset. -/
theorem payloadOffset_of_le {a : Addr} (ha : a ≤ Config.bufLast) : payloadOffset a = a.toNat := by
  have hlt : a.toNat < 2 ^ 8 := Nat.lt_succ_of_le (BitVec.le_def.mp ha)
  rw [payloadOffset, BitVec.toNat_setWidth, Nat.mod_eq_of_lt hlt]

/-! ### Sync in a write -/

theorem exec_stSync (n : Nibble) (s : State) : exec (.stSync n) s = .next (actSync s) := rfl

/-- R100: the handler runs once, and the ready code and the next state do not depend on what it does. -/
theorem exec_stSync_write {s : State} (hdir : s.direction = .write) (n : Nibble) :
    exec (.stSync n) s =
      .next (((transportWrite s.address s.data s).setLadOut s.codes.syncReady).goto .turnToHost0) := by
  have hwrite : actSync s = actSyncWrite s := by rw [actSync, hdir]
  rw [exec_stSync, hwrite, actSyncWrite, transportWrite_setLadOut]

/-! ### The statement -/

/-- Settles O21: one call of the handler between the drive and the next state (`exec_stSync_write`), and in each
clause the handler's equation for that owner and address. -/
theorem syncWritesByAddress : Obligations.SyncWritesByAddress := by
  intro n s hdir
  rw [exec_stSync_write hdir]
  refine ⟨fun howner => ?owned, fun habove => ?above, fun howner hlength => ?length,
    fun howner hchecksum => ?checksum, fun howner hack => ?ack, fun howner hpayload => ?payload⟩
  case owned =>
    rw [transportWrite_owned howner]
    rfl
  case above =>
    rw [transportWrite_above habove]
    rfl
  case length =>
    rw [transportWrite_length howner hlength]
    rfl
  case checksum =>
    rw [transportWrite_checksum howner hchecksum]
    rfl
  case ack =>
    rw [transportWrite_ack howner hack]
    rfl
  case payload =>
    rw [transportWrite_payload howner hpayload, writePayload, payloadOffset_of_le hpayload]
    rfl

end Sys2Proof.Machine
end

section
/-! PROOFS. The host's reads (spec/43_transport_read.md R120 to R126): the read handler by its address, the action of
Sync in a read, and the statement about it. -/

namespace Sys2Proof.Machine

/-! ### The read handler, by its address -/

/-- R121: the ownership gate comes before the address. -/
theorem transportRead_owned {s : State} (howner : s.owner = true) (a : Addr) :
    transportRead a s = (none, s) := if_pos howner

/-- R126: past the last control register every read fails, whoever owns the buffer. -/
theorem transportRead_above {a : Addr} (ha : 0x0103#16 ≤ a) (s : State) : transportRead a s = (none, s) := by
  rcases transportRead_cases a s with ⟨-, howned⟩ | ⟨-, rfl, -⟩ | ⟨-, rfl, -⟩ | ⟨-, rfl, -⟩ | ⟨-, hpayload, -⟩ |
    ⟨-, -, hunmapped⟩
  · exact howned
  · exact absurd ha (by decide)
  · exact absurd ha (by decide)
  · exact absurd ha (by decide)
  · exact absurd (BitVec.le_trans ha hpayload) (by decide)
  · exact hunmapped

/-- Past the ownership gate the address alone selects (R120). -/
theorem transportRead_of_host {s : State} (howner : s.owner = false) (a : Addr) :
    transportRead a s =
      if a = Config.addrLength then readLength s
      else if a = Config.addrChecksum then readChecksum s
      else if a = Config.addrAck then readAck s
      else if a ≤ Config.bufLast then readPayload a s
      else (none, s) :=
  if_neg (by simp only [howner, Bool.false_eq_true, not_false_eq_true])

theorem transportRead_length {s : State} (howner : s.owner = false) :
    transportRead Config.addrLength s = readLength s := by
  rw [transportRead_of_host howner, if_pos rfl]

theorem transportRead_checksum {s : State} (howner : s.owner = false) :
    transportRead Config.addrChecksum s = readChecksum s := by
  rw [transportRead_of_host howner, if_neg (by decide), if_pos rfl]

theorem transportRead_ack {s : State} (howner : s.owner = false) :
    transportRead Config.addrAck s = readAck s := by
  rw [transportRead_of_host howner, if_neg (by decide), if_neg (by decide), if_pos rfl]

theorem transportRead_payload {s : State} (howner : s.owner = false) {a : Addr} (ha : a ≤ Config.bufLast) :
    transportRead a s = readPayload a s := by
  have hlength : a ≠ Config.addrLength := by bv_omega
  have hchecksum : a ≠ Config.addrChecksum := by bv_omega
  have hack : a ≠ Config.addrAck := by bv_omega
  rw [transportRead_of_host howner, if_neg hlength, if_neg hchecksum, if_neg hack, if_pos ha]

/-- R124: while the host owns the buffer, the pass byte alone says who owns it after a read of Ack. -/
theorem ownerAfterAck_of_host (ack : Byte) : ownerAfterAck ack false = decide (ack = Config.ackPass) := by
  by_cases hpass : ack = Config.ackPass
  · rw [ownerAfterAck, if_pos hpass, decide_eq_true hpass]
  · rw [ownerAfterAck, if_neg hpass, decide_eq_false hpass]

/-! ### Sync in a read -/

/-- R100: a byte of the handler goes to `data`, and the ready code is driven over the state the handler left. -/
theorem exec_stSync_read_answered {s t : State} {b : Byte} (hdir : s.direction = .read)
    (hread : transportRead s.address s = (some b, t)) (n : Nibble) :
    exec (.stSync n) s = .next (actDrive s.codes.syncReady .dataRead0 (t.setData b)) := by
  rw [exec_stSync, actSync, hdir]
  simp only [actSyncRead, hread]

/-- R100: a failed read drives the wait code and stays in Sync. -/
theorem exec_stSync_read_failed {s t : State} (hdir : s.direction = .read)
    (hread : transportRead s.address s = (none, t)) (n : Nibble) :
    exec (.stSync n) s = .next (actDrive s.codes.syncShortWait .sync t) := by
  rw [exec_stSync, actSync, hdir]
  simp only [actSyncRead, hread]

/-! ### The statement -/

/-- Settles O20: in each clause the handler's equation for that owner and address says whether the read is answered
(`exec_stSync_read_answered`) or fails (`exec_stSync_read_failed`). -/
theorem syncReadsByAddress : Obligations.SyncReadsByAddress := by
  intro n s hdir
  refine ⟨fun howner => ?owned, fun habove => ?above, fun howner hlength => ?length,
    fun howner hchecksum => ?checksum, fun howner hack => ?ack, fun howner hpayload => ?payload⟩
  case owned => exact exec_stSync_read_failed hdir (transportRead_owned howner s.address) n
  case above => exact exec_stSync_read_failed hdir (transportRead_above habove s) n
  case length =>
    have hread : transportRead s.address s = readLength s := hlength ▸ transportRead_length howner
    exact exec_stSync_read_answered hdir hread n
  case checksum =>
    have hread : transportRead s.address s = readChecksum s := hchecksum ▸ transportRead_checksum howner
    exact exec_stSync_read_answered hdir hread n
  case ack =>
    have hread : transportRead s.address s = readAck s := hack ▸ transportRead_ack howner
    rw [exec_stSync_read_answered hdir hread, howner, ownerAfterAck_of_host]
    rfl
  case payload =>
    rw [exec_stSync_read_answered hdir (transportRead_payload howner hpayload), payloadOffset_of_le hpayload]
    rfl

end Sys2Proof.Machine
end

section
/-! PROOFS. The application's two calls (spec/44_application_handoff.md R130 to R134): what `Peek` answers to each
owner, what `Submit` does for each owner and length, and the statements about the two calls. -/

namespace Sys2Proof.Machine

/-! ### Peek -/

theorem exec_peek (s : State) : exec .peek s = .next (s.setReply (peekReply s)) := rfl

/-- R130: the application, owning the buffer, gets its contents and the length. -/
theorem peekReply_owned {s : State} (howner : s.owner = true) : peekReply s = .available s.buf s.length :=
  if_pos howner

/-- R131: otherwise there is nothing to see. -/
theorem peekReply_of_host {s : State} (howner : s.owner = false) : peekReply s = .notAvailable :=
  if_neg (by simp only [howner, Bool.false_eq_true, not_false_eq_true])

/-! ### Submit, by the owner and the length of the payload -/

theorem exec_submit (payload : List Byte) (s : State) : exec (.submit payload) s = .next (submitCall payload s) := rfl

/-- R133: the ownership gate comes before the length. -/
theorem submitCall_of_host {s : State} (howner : s.owner = false) (payload : List Byte) :
    submitCall payload s = s.setReply .failed := if_pos howner

/-- R132: the application, owning the buffer, submits up to 255 bytes. -/
theorem submitCall_accepted {s : State} (howner : s.owner = true) {payload : List Byte}
    (hlen : payload.length ≤ 255) : submitCall payload s = acceptSubmit payload s := by
  rw [submitCall_short payload s hlen, if_pos howner]

/-- R134: a payload longer than the buffer fails, whoever owns the buffer. -/
theorem submitCall_overlong {payload : List Byte} (hlen : 256 < payload.length) (s : State) :
    submitCall payload s = s.setReply .failed := by
  cases howner : s.owner with
  | false => exact submitCall_of_host howner payload
  | true =>
    have hshort : ¬ payload.length ≤ 255 := by omega
    have hwhole : payload.length ≠ 256 := by omega
    rw [submitCall, if_neg (by simp only [howner, Bool.true_eq_false, not_false_eq_true]), if_neg hshort,
      if_neg hwhole]

/-! ### What an accepted Submit leaves -/

/-- The four registers an accepted Submit writes. -/
theorem acceptSubmit_eq (payload : List Byte) (s : State) :
    acceptSubmit payload s =
      { s with
        buf := s.buf.putBytes 0 payload, length := BitVec.ofNat 8 payload.length, owner := false, reply := .ok } :=
  rfl

/-- Up to 255 bytes the length register holds the length itself; of 256 it would hold 0 (R134). -/
theorem acceptSubmit_length_toNat {payload : List Byte} (hlen : payload.length ≤ 255) (s : State) :
    (acceptSubmit payload s).length.toNat = payload.length := by
  have hlt : payload.length < 2 ^ 8 := Nat.lt_succ_of_le hlen
  calc (acceptSubmit payload s).length.toNat
    _ = payload.length % 2 ^ 8 := BitVec.toNat_ofNat payload.length 8
    _ = payload.length := Nat.mod_eq_of_lt hlt

/-- R132: the payload from offset 0 on, and past its end the bytes of before. -/
theorem acceptSubmit_buf_get {s : State} (hbuf : s.buf.wf = true) {payload : List Byte}
    (hlen : payload.length ≤ Config.bufSize) (x : Nat) :
    (acceptSubmit payload s).buf.get x = (payload[x]?).getD (s.buf.get x) := by
  have hfits : 0 + payload.length ≤ Config.bufSize := by omega
  calc (acceptSubmit payload s).buf.get x
    _ = if x < 0 then s.buf.get x else (payload[x - 0]?).getD (s.buf.get x) :=
      Memory.get_putBytes hbuf payload 0 hfits x
    _ = (payload[x]?).getD (s.buf.get x) := if_neg x.not_lt_zero

/-! ### The statements -/

/-- Settles O41: past the two tests of R132 the call is `acceptSubmit`, and every offset of its buffer is fixed by the
write of the payload over a canonical buffer (`acceptSubmit_buf_get`). -/
theorem submitHandsTheReplyOver : Obligations.SubmitHandsTheReplyOver := by
  intro payload s howner hbuf hlen
  have hrun : exec (.submit payload) s = .next (acceptSubmit payload s) := by
    rw [exec_submit, submitCall_accepted howner hlen]
  have hfits : payload.length ≤ Config.bufSize := Nat.le_succ_of_le hlen
  exact ⟨acceptSubmit payload s, hrun, acceptSubmit_eq payload s, acceptSubmit_length_toNat hlen s,
    acceptSubmit_buf_get hbuf hfits⟩

/-- Settles O40: the owner alone selects the answer, and the answer is all that is written. -/
theorem peekReturnsTheMessage : Obligations.PeekReturnsTheMessage := by
  intro s
  refine ⟨fun howner => ?owned, fun howner => ?host⟩
  case owned =>
    rw [exec_peek, peekReply_owned howner]
    rfl
  case host =>
    rw [exec_peek, peekReply_of_host howner]
    rfl

/-- Settles O42: each of the two grounds makes the call fail, whatever the other says. -/
theorem submitFails : Obligations.SubmitFails := by
  intro payload s hground
  have hfail : submitCall payload s = s.setReply .failed := by
    rcases hground with howner | hlen
    · exact submitCall_of_host howner payload
    · exact submitCall_overlong hlen s
  rw [exec_submit, hfail]
  rfl

end Sys2Proof.Machine
end

section
/-! PROOFS. The encoding (spec/30_encoding.md R61 to R69, R73, R74): the rows by format, what each format's decoder
accepts, and the statements that decoder and encoder are each other's inverse. -/

namespace Sys2Proof

open Machine

/-! ### The IOW and IOR rows of an address (R69) -/

theorem Instr.iow_payload {a : Addr} (ha : a ≤ Config.bufLast) (bit0 : Bool) (v : Byte) :
    Instr.iow bit0 a v = .iowPayload bit0 (a.setWidth 8) v := by
  have hlength : a ≠ Config.addrLength := by bv_omega
  have hchecksum : a ≠ Config.addrChecksum := by bv_omega
  have hack : a ≠ Config.addrAck := by bv_omega
  rw [Instr.iow, if_neg hlength, if_neg hchecksum, if_neg hack, if_pos ha]

theorem Instr.ior_payload {a : Addr} (ha : a ≤ Config.bufLast) (bit0 : Bool) :
    Instr.ior bit0 a = .iorPayload bit0 (a.setWidth 8) := by
  have hlength : a ≠ Config.addrLength := by bv_omega
  have hchecksum : a ≠ Config.addrChecksum := by bv_omega
  have hack : a ≠ Config.addrAck := by bv_omega
  rw [Instr.ior, if_neg hlength, if_neg hchecksum, if_neg hack, if_pos ha]

/-- An address of no other row, as the four tests of R69. -/
theorem unmapped_iff (a : Addr) :
    unmapped a = true ↔
      a ≠ Config.addrLength ∧ a ≠ Config.addrChecksum ∧ a ≠ Config.addrAck ∧ ¬ a ≤ Config.bufLast := by
  simp only [unmapped, Bool.not_eq_true', Bool.or_eq_false_iff, decide_eq_false_iff_not]
  tauto

theorem Instr.iow_unmapped {a : Addr} (ha : unmapped a = true) (bit0 : Bool) (v : Byte) :
    Instr.iow bit0 a v = .iowNone bit0 a v := by
  obtain ⟨hlength, hchecksum, hack, hpayload⟩ := (unmapped_iff a).mp ha
  rw [Instr.iow, if_neg hlength, if_neg hchecksum, if_neg hack, if_neg hpayload]

theorem Instr.ior_unmapped {a : Addr} (ha : unmapped a = true) (bit0 : Bool) :
    Instr.ior bit0 a = .iorNone bit0 a := by
  obtain ⟨hlength, hchecksum, hack, hpayload⟩ := (unmapped_iff a).mp ha
  rw [Instr.ior, if_neg hlength, if_neg hchecksum, if_neg hack, if_neg hpayload]

/-- The mapped addresses are the payload and the three control registers. -/
theorem mapped_cases (a : Addr) :
    a = Config.addrLength ∨ a = Config.addrChecksum ∨ a = Config.addrAck ∨ a ≤ Config.bufLast ∨
      unmapped a = true := by
  rw [unmapped_iff]
  tauto

/-! ### Payload addresses and offsets (R41) -/

theorem payloadAddr_le (offset : Byte) : payloadAddr offset ≤ Config.bufLast := by
  rw [BitVec.le_def, payloadAddr_toNat]
  exact Nat.le_of_lt_succ offset.isLt

theorem setWidth_payloadAddr (offset : Byte) : (payloadAddr offset).setWidth 8 = offset :=
  BitVec.eq_of_toNat_eq (payloadOffset_payloadAddr offset)

theorem payloadAddr_setWidth {a : Addr} (ha : a ≤ Config.bufLast) : payloadAddr (a.setWidth 8) = a := by
  apply BitVec.eq_of_toNat_eq
  rw [payloadAddr_toNat]
  exact payloadOffset_of_le ha

theorem Instr.iow_payloadAddr (bit0 : Bool) (offset v : Byte) :
    Instr.iow bit0 (payloadAddr offset) v = .iowPayload bit0 offset v := by
  rw [Instr.iow_payload (payloadAddr_le offset), setWidth_payloadAddr]

theorem Instr.ior_payloadAddr (bit0 : Bool) (offset : Byte) :
    Instr.ior bit0 (payloadAddr offset) = .iorPayload bit0 offset := by
  rw [Instr.ior_payload (payloadAddr_le offset), setWidth_payloadAddr]

/-! ### The rows by their operands -/

/-- The 38 rows, read as the model's row functions of an event's strobe levels, a state or an address, and the rows
that have no such function. `Instr.row` says these are all. -/
inductive Instr.Row : Instr → Prop
  | event (prev now : Strobe) (n : Nibble) : Row (Instr.ofEvent prev now n)
  | state (c : CycleState) (n : Nibble) : Row (Instr.ofState c n)
  | peek : Row .peek
  | submit (payload : List Byte) : Row (.submit payload)
  | frameStart (n : Nibble) : Row (.frameStart n)
  | frameAbort (n : Nibble) : Row (.frameAbort n)
  | frameOther (code n : Nibble) : Row (.frameOther code n)
  | cycMem (d : Direction) (bit0 : Bool) : Row (.cycMem d bit0)
  | cycDma (d : Direction) (bit0 : Bool) : Row (.cycDma d bit0)
  | cycRsvd (d : Direction) (bit0 : Bool) : Row (.cycRsvd d bit0)
  | iow (bit0 : Bool) (a : Addr) (v : Byte) : Row (Instr.iow bit0 a v)
  | iowNone (bit0 : Bool) (a : Addr) (v : Byte) : Row (.iowNone bit0 a v)
  | ior (bit0 : Bool) (a : Addr) : Row (Instr.ior bit0 a)
  | iorNone (bit0 : Bool) (a : Addr) : Row (.iorNone bit0 a)

theorem Instr.row (i : Instr) : Instr.Row i := by
  cases i with
  | fall n => exact .event .inactive .active n
  | hold n => exact .event .active .active n
  | rise n => exact .event .active .inactive n
  | run n => exact .event .inactive .inactive n
  | stIdle n => exact .state .idle n
  | stCycTypeAndDir n => exact .state .cycTypeAndDir n
  | stAddr0 n => exact .state .addr0 n
  | stAddr1 n => exact .state .addr1 n
  | stAddr2 n => exact .state .addr2 n
  | stAddr3 n => exact .state .addr3 n
  | stDataWrite0 n => exact .state .dataWrite0 n
  | stDataWrite1 n => exact .state .dataWrite1 n
  | stTurnToPeripheral0 n => exact .state .turnToPeripheral0 n
  | stTurnToPeripheral1 n => exact .state .turnToPeripheral1 n
  | stSync n => exact .state .sync n
  | stDataRead0 n => exact .state .dataRead0 n
  | stDataRead1 n => exact .state .dataRead1 n
  | stTurnToHost0 n => exact .state .turnToHost0 n
  | stTurnToHost1 n => exact .state .turnToHost1 n
  | stAbort n => exact .state .abort n
  | peek => exact .peek
  | submit payload => exact .submit payload
  | frameStart n => exact .frameStart n
  | frameAbort n => exact .frameAbort n
  | frameOther code n => exact .frameOther code n
  | cycMem d bit0 => exact .cycMem d bit0
  | cycDma d bit0 => exact .cycDma d bit0
  | cycRsvd d bit0 => exact .cycRsvd d bit0
  | iowLength bit0 v => exact .iow bit0 Config.addrLength v
  | iowChecksum bit0 v => exact .iow bit0 Config.addrChecksum v
  | iowAck bit0 v => exact .iow bit0 Config.addrAck v
  | iowPayload bit0 offset v => exact Instr.iow_payloadAddr bit0 offset v ▸ .iow bit0 (payloadAddr offset) v
  | iowNone bit0 a v => exact .iowNone bit0 a v
  | iorLength bit0 => exact .ior bit0 Config.addrLength
  | iorChecksum bit0 => exact .ior bit0 Config.addrChecksum
  | iorAck bit0 => exact .ior bit0 Config.addrAck
  | iorPayload bit0 offset => exact Instr.ior_payloadAddr bit0 offset ▸ .ior bit0 (payloadAddr offset)
  | iorNone bit0 a => exact .iorNone bit0 a

/-! ### What the encoder writes for the row functions -/

theorem encode_ofEvent (codes : WireCodes) (prev now : Strobe) (n : Nibble) :
    encode codes (Instr.ofEvent prev now n) = encodeEvent prev now n := by
  cases prev <;> cases now <;> rfl

theorem encode_ofState (codes : WireCodes) (c : CycleState) (n : Nibble) :
    encode codes (Instr.ofState c n) = encodeState c n := by
  cases c <;> rfl

theorem encode_iow (codes : WireCodes) (bit0 : Bool) (a : Addr) (v : Byte) :
    encode codes (Instr.iow bit0 a v) = encodeIow codes bit0 a v := by
  rcases mapped_cases a with rfl | rfl | rfl | hpayload | hunmapped
  · rfl
  · rfl
  · rfl
  · rw [Instr.iow_payload hpayload, encode, payloadAddr_setWidth hpayload]
  · rw [Instr.iow_unmapped hunmapped, encode]

theorem encode_ior (codes : WireCodes) (bit0 : Bool) (a : Addr) :
    encode codes (Instr.ior bit0 a) = encodeIor codes bit0 a := by
  rcases mapped_cases a with rfl | rfl | rfl | hpayload | hunmapped
  · rfl
  · rfl
  · rfl
  · rw [Instr.ior_payload hpayload, encode, payloadAddr_setWidth hpayload]
  · rw [Instr.ior_unmapped hunmapped, encode]

/-! ### Decoding what the encoder writes, by format -/

theorem decode_encodeEvent (codes : WireCodes) (prev now : Strobe) (n : Nibble) :
    decode codes (encodeEvent prev now n) = .ok (Instr.ofEvent prev now n) :=
  decode_sample codes prev now n

theorem decode_encodeState (codes : WireCodes) (c : CycleState) (n : Nibble) :
    decode codes (encodeState c n) = .ok (Instr.ofState c n) :=
  congrArg (fun c => Except.ok (Instr.ofState c n)) (ofOrdinal_ordinal c)

theorem decodeFrame_start (codes : WireCodes) (n : Nibble) :
    decodeFrame codes codes.frameStart n = .frameStart n := if_pos rfl

theorem decodeFrame_abort {codes : WireCodes} (hwf : codes.wf = true) (n : Nibble) :
    decodeFrame codes codes.frameAbort n = .frameAbort n := by
  obtain ⟨hframe, -⟩ := codes.wf_iff.mp hwf
  rw [decodeFrame, if_neg hframe.symm, if_pos rfl]

theorem decodeFrame_other {codes : WireCodes} {code : Nibble} (hs : code ≠ codes.frameStart)
    (ha : code ≠ codes.frameAbort) (n : Nibble) : decodeFrame codes code n = .frameOther code n := by
  rw [decodeFrame, if_neg hs, if_neg ha]

/-- The CTDIR row of a cycle type: none for IO (R69). -/
def ctdirRow (t : CycleType) (d : Direction) (bit0 : Bool) : Except Reject Instr :=
  match t with
  | .io => .error (.noRow .ctdir)
  | .memory => .ok (.cycMem d bit0)
  | .dma => .ok (.cycDma d bit0)
  | .reserved => .ok (.cycRsvd d bit0)

theorem decodeCtdir_start (codes : WireCodes) (c : Nibble) :
    decodeCtdir codes codes.frameStart c =
      ctdirRow (ctdirType codes c) (ctdirDirection codes c) (ctdirBit0 c) := by
  rw [decodeCtdir, if_pos rfl]
  cases ctdirType codes c <;> rfl

theorem decode_encodeCtdir {codes : WireCodes} (hwf : codes.wf = true) (t : CycleType) (d : Direction)
    (bit0 : Bool) : decode codes (encodeCtdir codes t d bit0) = ctdirRow t d bit0 := by
  calc decode codes (encodeCtdir codes t d bit0)
    _ = decodeCtdir codes codes.frameStart (ctdirNibble codes t d bit0) := rfl
    _ = ctdirRow t d bit0 := by
      rw [decodeCtdir_start, ctdirType_nibble hwf, ctdirDirection_nibble, ctdirBit0_nibble]

theorem decode_encodeIow (codes : WireCodes) (bit0 : Bool) (a : Addr) (v : Byte) :
    decode codes (encodeIow codes bit0 a v) = .ok (Instr.iow bit0 a v) := by
  calc decode codes (encodeIow codes bit0 a v)
    _ = decodeIow codes codes.frameStart (ctdirNibble codes .io .write bit0)
          (joinAddr (a.extractLsb' 12 4) (a.extractLsb' 8 4) (a.extractLsb' 4 4) (a.extractLsb' 0 4))
          (lowNibble v) (highNibble v) := rfl
    _ = .ok (Instr.iow bit0 a v) := by
      rw [decodeIow, if_pos ⟨rfl, ctdirType_io_nibble .., ctdirDirection_nibble ..⟩, ctdirBit0_nibble,
        joinAddr_nibbles, joinNibbles_split]

theorem decode_encodeIor (codes : WireCodes) (bit0 : Bool) (a : Addr) :
    decode codes (encodeIor codes bit0 a) = .ok (Instr.ior bit0 a) := by
  calc decode codes (encodeIor codes bit0 a)
    _ = decodeIor codes codes.frameStart (ctdirNibble codes .io .read bit0)
          (joinAddr (a.extractLsb' 12 4) (a.extractLsb' 8 4) (a.extractLsb' 4 4) (a.extractLsb' 0 4)) := rfl
    _ = .ok (Instr.ior bit0 a) := by
      rw [decodeIor, if_pos ⟨rfl, ctdirType_io_nibble .., ctdirDirection_nibble ..⟩, ctdirBit0_nibble,
        joinAddr_nibbles]

/-! ### What the decoder accepts -/

/-- The packets the decoder accepts, each with its instruction (R60, R69). `decodes_of_decode` says these are all. -/
inductive Decodes (codes : WireCodes) : Packet → Instr → Prop
  | event (prev now : Strobe) (n : Nibble) : Decodes codes (encodeEvent prev now n) (Instr.ofEvent prev now n)
  | state (c : CycleState) (n : Nibble) : Decodes codes (encodeState c n) (Instr.ofState c n)
  | frame (code n : Nibble) : Decodes codes ⟨.frame, [code, n], []⟩ (decodeFrame codes code n)
  | ctdir (c : Nibble) (i : Instr)
      (hrow : ctdirRow (ctdirType codes c) (ctdirDirection codes c) (ctdirBit0 c) = .ok i) :
      Decodes codes ⟨.ctdir, [codes.frameStart, c], []⟩ i
  | iow (c n1 n2 n3 n4 lo hi : Nibble) (htype : ctdirType codes c = .io) (hdir : ctdirDirection codes c = .write) :
      Decodes codes ⟨.iow, [codes.frameStart, c, n1, n2, n3, n4, lo, hi], []⟩
        (Instr.iow (ctdirBit0 c) (joinAddr n1 n2 n3 n4) (joinNibbles hi lo))
  | ior (c n1 n2 n3 n4 : Nibble) (htype : ctdirType codes c = .io) (hdir : ctdirDirection codes c = .read) :
      Decodes codes ⟨.ior, [codes.frameStart, c, n1, n2, n3, n4], []⟩
        (Instr.ior (ctdirBit0 c) (joinAddr n1 n2 n3 n4))
  | peek : Decodes codes ⟨.app, [0#4], []⟩ .peek
  | submit (payload : List Byte) : Decodes codes ⟨.app, [1#4], payload⟩ (.submit payload)

/-- An event key is the key of two strobe levels, which select its row (R61). -/
theorem decodes_of_decodeEvent (codes : WireCodes) {key n : Nibble} {i : Instr} (h : decodeEvent key n = .ok i) :
    Decodes codes ⟨.event, [key, n], []⟩ i := by
  unfold decodeEvent at h
  have levels (prev now : Strobe) (hkey : key.toNat = (eventKey prev now).toNat)
      (hrow : Except.ok (Instr.ofEvent prev now n) = .ok (ε := Reject) i) :
      Decodes codes ⟨.event, [key, n], []⟩ i := by
    obtain rfl := BitVec.eq_of_toNat_eq hkey
    cases hrow
    exact .event prev now n
  split at h
  · next hkey => exact levels .inactive .inactive hkey h
  · next hkey => exact levels .inactive .active hkey h
  · next hkey => exact levels .active .inactive hkey h
  · next hkey => exact levels .active .active hkey h
  · cases h

theorem decodes_of_decodeApp (codes : WireCodes) {selector : Nibble} {payload : List Byte} {i : Instr}
    (h : decodeApp selector payload = .ok i) : Decodes codes ⟨.app, [selector], payload⟩ i := by
  unfold decodeApp at h
  split at h
  · next hselector =>
    obtain rfl : selector = 0#4 := BitVec.eq_of_toNat_eq hselector
    cases h
    exact .peek
  · cases h
  · next hselector =>
    obtain rfl : selector = 1#4 := BitVec.eq_of_toNat_eq hselector
    cases h
    exact .submit _
  · cases h

theorem Packet.eq_mk {p : Packet} {f : Format} {l : List Nibble} {m : List Byte} (hformat : p.format = f)
    (hnibbles : p.nibbles = l) (hpayload : p.payload = m) : p = ⟨f, l, m⟩ := by
  subst hformat hnibbles hpayload
  rfl

theorem decodes_of_decode {codes : WireCodes} {p : Packet} {i : Instr} (h : decode codes p = .ok i) :
    Decodes codes p i := by
  unfold decode at h
  split at h
  · next key n hformat hnibbles hpayload =>
    rw [Packet.eq_mk hformat hnibbles hpayload]
    exact decodes_of_decodeEvent codes h
  · next key n hformat hnibbles hpayload =>
    rw [Packet.eq_mk hformat hnibbles hpayload, ← ordinal_ofOrdinal key]
    cases h
    exact .state (CycleState.ofOrdinal key) n
  · next code n hformat hnibbles hpayload =>
    rw [Packet.eq_mk hformat hnibbles hpayload]
    cases h
    exact .frame code n
  · next code c hformat hnibbles hpayload =>
    rw [Packet.eq_mk hformat hnibbles hpayload]
    by_cases hcode : code = codes.frameStart
    · subst hcode
      exact .ctdir c i (decodeCtdir_start codes c ▸ h)
    · rw [decodeCtdir, if_neg hcode] at h
      cases h
  · next code c n1 n2 n3 n4 lo hi hformat hnibbles hpayload =>
    rw [Packet.eq_mk hformat hnibbles hpayload]
    unfold decodeIow at h
    split at h
    · next hrow =>
      obtain ⟨rfl, htype, hdir⟩ := hrow
      cases h
      exact .iow c n1 n2 n3 n4 lo hi htype hdir
    · cases h
  · next code c n1 n2 n3 n4 hformat hnibbles hpayload =>
    rw [Packet.eq_mk hformat hnibbles hpayload]
    unfold decodeIor at h
    split at h
    · next hrow =>
      obtain ⟨rfl, htype, hdir⟩ := hrow
      cases h
      exact .ior c n1 n2 n3 n4 htype hdir
    · cases h
  · next selector hformat hnibbles =>
    rw [Packet.eq_mk hformat hnibbles rfl]
    exact decodes_of_decodeApp codes h
  · cases h

/-! ### The statements -/

/-- Settles O1: every row is one of the row functions or has an operand of its own (`Instr.row`), and each format's
decoder undoes its encoder; well-formedness is what keeps the catch-all rows off the rows before them. -/
theorem decodeReadsWhatEncodeWrites : Obligations.DecodeReadsWhatEncodeWrites := by
  intro codes i hcodes hi
  cases i.row with
  | event prev now n => rw [encode_ofEvent, decode_encodeEvent]
  | state c n => rw [encode_ofState, decode_encodeState]
  | peek => rfl
  | submit payload => rfl
  | frameStart n => exact congrArg Except.ok (decodeFrame_start codes n)
  | frameAbort n => exact congrArg Except.ok (decodeFrame_abort hcodes n)
  | frameOther code n =>
    simp only [Instr.wf, ne_eq, Bool.and_eq_true, decide_eq_true_eq] at hi
    exact congrArg Except.ok (decodeFrame_other hi.1 hi.2 n)
  | cycMem d bit0 => exact decode_encodeCtdir hcodes .memory d bit0
  | cycDma d bit0 => exact decode_encodeCtdir hcodes .dma d bit0
  | cycRsvd d bit0 => exact decode_encodeCtdir hcodes .reserved d bit0
  | iow bit0 a v => rw [encode_iow, decode_encodeIow]
  | iowNone bit0 a v => rw [← Instr.iow_unmapped hi, encode_iow, decode_encodeIow]
  | ior bit0 a => rw [encode_ior, decode_encodeIor]
  | iorNone bit0 a => rw [← Instr.ior_unmapped hi, encode_ior, decode_encodeIor]

theorem wf_ofEvent (codes : WireCodes) (prev now : Strobe) (n : Nibble) :
    (Instr.ofEvent prev now n).wf codes = true := by
  cases prev <;> cases now <;> rfl

theorem wf_ofState (codes : WireCodes) (c : CycleState) (n : Nibble) : (Instr.ofState c n).wf codes = true := by
  cases c <;> rfl

theorem wf_iow (codes : WireCodes) (bit0 : Bool) (a : Addr) (v : Byte) : (Instr.iow bit0 a v).wf codes = true := by
  rcases mapped_cases a with rfl | rfl | rfl | hpayload | hunmapped
  · rfl
  · rfl
  · rfl
  · rw [Instr.iow_payload hpayload]
    rfl
  · rwa [Instr.iow_unmapped hunmapped, Instr.wf]

theorem wf_ior (codes : WireCodes) (bit0 : Bool) (a : Addr) : (Instr.ior bit0 a).wf codes = true := by
  rcases mapped_cases a with rfl | rfl | rfl | hpayload | hunmapped
  · rfl
  · rfl
  · rfl
  · rw [Instr.ior_payload hpayload]
    rfl
  · rwa [Instr.ior_unmapped hunmapped, Instr.wf]

/-- The word of the FRAME row of a code is that code, and the row is well formed (R63). -/
theorem encode_decodeFrame (codes : WireCodes) (code n : Nibble) :
    (decodeFrame codes code n).wf codes = true ∧
      encode codes (decodeFrame codes code n) = ⟨.frame, [code, n], []⟩ := by
  by_cases hs : code = codes.frameStart
  · subst hs
    rw [decodeFrame_start]
    exact ⟨rfl, rfl⟩
  by_cases ha : code = codes.frameAbort
  · subst ha
    rw [decodeFrame, if_neg hs, if_pos rfl]
    exact ⟨rfl, rfl⟩
  · rw [decodeFrame_other hs ha, Instr.wf, encode]
    exact ⟨by simp only [ne_eq, hs, ha, not_false_eq_true, decide_true, Bool.and_true], rfl⟩

/-- The word of the CTDIR row of a cycle type is the nibble of its fields, and the row is well formed (R64). -/
theorem encode_ctdirRow (codes : WireCodes) {t : CycleType} {d : Direction} {bit0 : Bool} {i : Instr}
    (h : ctdirRow t d bit0 = .ok i) : i.wf codes = true ∧ encode codes i = encodeCtdir codes t d bit0 := by
  cases t <;> cases h <;> exact ⟨rfl, rfl⟩

theorem addrNibbles_joinAddr (n1 n2 n3 n4 : Nibble) : addrNibbles (joinAddr n1 n2 n3 n4) = [n1, n2, n3, n4] := by
  have h2 := n2.isLt
  have h3 := n3.isLt
  have h4 := n4.isLt
  have nibble (k : Nat) (n : Nibble) (h : (joinAddr n1 n2 n3 n4).toNat / 2 ^ k % 16 = n.toNat) :
      (joinAddr n1 n2 n3 n4).extractLsb' k 4 = n :=
    BitVec.eq_of_toNat_eq ((extract_toNat ..).trans h)
  have h1 := n1.isLt
  rw [joinAddr_toNat] at nibble
  rw [addrNibbles, nibble 12 n1 (by omega), nibble 8 n2 (by omega), nibble 4 n3 (by omega), nibble 0 n4 (by omega)]

/-- Settles O2: the accepted packets are those of `Decodes`, and each is what the encoder writes for its
instruction, because the fields of a nibble, an address or a byte determine it. -/
theorem decodedPacketsAreEncodings : Obligations.DecodedPacketsAreEncodings := by
  intro codes p i hcodes h
  cases decodes_of_decode h with
  | event prev now n => exact ⟨wf_ofEvent codes prev now n, encode_ofEvent codes prev now n⟩
  | state c n => exact ⟨wf_ofState codes c n, encode_ofState codes c n⟩
  | frame code n => exact encode_decodeFrame codes code n
  | ctdir c _ hrow =>
    obtain ⟨hwf, hencode⟩ := encode_ctdirRow codes hrow
    exact ⟨hwf, by rw [hencode, encodeCtdir, ctdirNibble_fields hcodes]⟩
  | iow c n1 n2 n3 n4 lo hi htype hdir =>
    have hctdir : ctdirNibble codes .io .write (ctdirBit0 c) = c := by
      rw [← htype, ← hdir, ctdirNibble_fields hcodes]
    refine ⟨wf_iow .., ?_⟩
    rw [encode_iow, encodeIow, hctdir, addrNibbles_joinAddr, lowNibble_join, highNibble_join]
    rfl
  | ior c n1 n2 n3 n4 htype hdir =>
    have hctdir : ctdirNibble codes .io .read (ctdirBit0 c) = c := by
      rw [← htype, ← hdir, ctdirNibble_fields hcodes]
    refine ⟨wf_ior .., ?_⟩
    rw [encode_ior, encodeIor, hctdir, addrNibbles_joinAddr]
  | peek => exact ⟨rfl, rfl⟩
  | submit payload => exact ⟨rfl, rfl⟩

end Sys2Proof
end

section
/-! PROOFS. The table's words (spec/30_encoding.md R68, R69): a mask as fields of a word, the word of an I/O cycle as
the packet the encoder writes, and the statements about written words. -/

namespace Sys2Proof

/-! ### Masks and fields -/

/-- The mask of `len` bits from bit `start` on. -/
def fieldMask (w start len : Nat) : BitVec w := (BitVec.allOnes len).setWidth w <<< start

theorem and_fieldMask {w : Nat} (x : BitVec w) (start len : Nat) :
    x &&& fieldMask w start len = (x.extractLsb' start len).setWidth w <<< start := by
  apply BitVec.eq_of_getLsbD_eq
  intro i hi
  simp only [fieldMask, BitVec.getLsbD_and, BitVec.getLsbD_shiftLeft, BitVec.getLsbD_setWidth,
    BitVec.getLsbD_allOnes, BitVec.getLsbD_extractLsb']
  by_cases hlow : i < start
  · simp [hlow]
  · rw [show start + (i - start) = i by omega]
    simp [hi, hlow, Bool.and_comm, show i - start < w by omega]

theorem extract_and_fieldMask {w : Nat} (x : BitVec w) {start len : Nat} (hlen : start + len ≤ w) :
    (x &&& fieldMask w start len).extractLsb' start len = x.extractLsb' start len := by
  apply BitVec.eq_of_getLsbD_eq
  intro i hi
  have hin : start + i < w := by omega
  simp [fieldMask, hi, hin]

theorem or_and_self_left {w : Nat} (x y : BitVec w) : (x ||| y) &&& x = x := by
  ext i
  simpa using Or.inl

/-- A masked comparison with a field in the mask compares the rest and the field. -/
theorem and_mask_eq_iff {w : Nat} {x c mask rest : BitVec w} {start len : Nat} (hlen : start + len ≤ w)
    (hmask : mask = rest ||| fieldMask w start len) (hc : c &&& mask = c) :
    x &&& mask = c ↔ x &&& rest = c &&& rest ∧ x.extractLsb' start len = c.extractLsb' start len := by
  have absorb (k : BitVec w) (hk : mask &&& k = k) (h : x &&& mask = c) : x &&& k = c &&& k := by
    rw [← h, BitVec.and_assoc, hk]
  refine ⟨fun h => ⟨absorb rest ?_ h, ?_⟩, fun ⟨hrest, hfield⟩ => ?_⟩
  · rw [hmask, or_and_self_left]
  · have hk : x &&& fieldMask w start len = c &&& fieldMask w start len := by
      refine absorb _ ?_ h
      rw [hmask, BitVec.or_comm, or_and_self_left]
    rw [← extract_and_fieldMask x hlen, hk, extract_and_fieldMask c hlen]
  · calc x &&& mask
      _ = (x &&& rest) ||| (x &&& fieldMask w start len) := by rw [hmask, BitVec.and_or_distrib_left]
      _ = (c &&& rest) ||| (c &&& fieldMask w start len) := by
        rw [hrest, and_fieldMask, hfield, ← and_fieldMask]
      _ = c := by rw [← BitVec.and_or_distrib_left, ← hmask, hc]

/-! ### The words of an I/O cycle -/

theorem wordNibble_toNat {w : Nat} (x : BitVec w) (k : Nat) : wordNibble x.toNat k = x.extractLsb' (4 * k) 4 := by
  apply BitVec.eq_of_toNat_eq
  rw [extract_toNat, wordNibble, BitVec.toNat_ofNat, Nat.pow_mul]

/-- A nibble of a field is the nibble of the word. -/
theorem extract_extract {w : Nat} (x : BitVec w) {start len i k : Nat} (h : i + k ≤ len) :
    (x.extractLsb' start len).extractLsb' i k = x.extractLsb' (start + i) k := by
  apply BitVec.eq_of_getLsbD_eq
  intro j hj
  have hin : i + j < len := by omega
  simp [hj, hin, Nat.add_assoc]

/-- The frame code and the CTDIR nibble of a cycle's word, from the seven bits above bit 0 of CTDIR (R64, R68). -/
theorem extract_cycleHead {w : Nat} (x : BitVec w) (start : Nat) (d : Direction)
    (h : x.extractLsb' (start + 1) 7 = (BitVec.ofBool (dirBit {} d)).setWidth 7) :
    x.extractLsb' (start + 4) 4 = 0#4 ∧
      x.extractLsb' start 4 = ctdirNibble {} .io d (x.getLsbD start) := by
  have hcode : x.extractLsb' (start + 4) 4 = 0#4 := by
    rw [← extract_extract x (start := start + 1) (len := 7) (i := 3) (by decide), h]
    cases d <;> rfl
  have htype : x.extractLsb' (start + 2) 2 = 0#2 := by
    rw [← extract_extract x (start := start + 1) (len := 7) (i := 1) (by decide), h]
    cases d <;> rfl
  have hdir : x.getLsbD (start + 1) = dirBit {} d := by
    have hbit : (x.extractLsb' (start + 1) 7).getLsbD 0 = x.getLsbD (start + 1) := by simp
    rw [← hbit, h]
    cases d <;> rfl
  refine ⟨hcode, ?_⟩
  rw [← nibble_fields (x.extractLsb' start 4), extract_extract x (by decide), htype]
  simp only [BitVec.getLsbD_extractLsb', hdir]
  rfl

/-- The word of an I/O write, its first seven bits tested by the mask all IOW rows share. -/
theorem decodeWord_iow {w : BitVec 32} (h : w &&& 0xFE000000#32 = 0x02000000#32) :
    decodeWord {} .iow w.toNat =
      some (Instr.iow (w.getLsbD 24) (w.extractLsb' 8 16) (w.extractLsb' 0 4 ++ w.extractLsb' 4 4)) := by
  have hhead : w.extractLsb' 25 7 = 1#7 := by
    rw [← extract_and_fieldMask w (by decide)]
    exact congrArg (BitVec.extractLsb' 25 7) h
  obtain ⟨hcode, hctdir⟩ := extract_cycleHead w 24 .write hhead
  have hpacket : (⟨.iow, tableNibbles .iow w.toNat, []⟩ : Packet) =
      encodeIow {} (w.getLsbD 24) (w.extractLsb' 8 16) (joinNibbles (w.extractLsb' 0 4) (w.extractLsb' 4 4)) := by
    rw [encodeIow, lowNibble_join, highNibble_join, addrNibbles, ← hctdir]
    simp [tableNibbles, wordNibble_toNat, extract_extract, hcode]
  have hwidth : w.toNat < 2 ^ Format.iow.width := w.isLt
  rw [decodeWord, if_pos hwidth, hpacket, decode_encodeIow]
  rfl

/-- The word of an I/O read, likewise. -/
theorem decodeWord_ior {w : BitVec 24} (h : w &&& 0xFE0000#24 = 0x000000#24) :
    decodeWord {} .ior w.toNat = some (Instr.ior (w.getLsbD 16) (w.extractLsb' 0 16)) := by
  have hhead : w.extractLsb' 17 7 = 0#7 := by
    rw [← extract_and_fieldMask w (by decide)]
    exact congrArg (BitVec.extractLsb' 17 7) h
  obtain ⟨hcode, hctdir⟩ := extract_cycleHead w 16 .read hhead
  have hpacket : (⟨.ior, tableNibbles .ior w.toNat, []⟩ : Packet) =
      encodeIor {} (w.getLsbD 16) (w.extractLsb' 0 16) := by
    rw [encodeIor, addrNibbles, ← hctdir]
    simp [tableNibbles, wordNibble_toNat, extract_extract, hcode]
  have hwidth : w.toNat < 2 ^ Format.ior.width := w.isLt
  rw [decodeWord, if_pos hwidth, hpacket, decode_encodeIor]
  rfl

/-- Two bytes with the high one zero are a payload address. -/
theorem le_bufLast_iff (a : Addr) : a ≤ Config.bufLast ↔ a.extractLsb' 8 8 = 0#8 := by
  rw [BitVec.le_def, ← BitVec.toNat_inj, BitVec.extractLsb'_toNat, Nat.shiftRight_eq_div_pow]
  have ha := a.isLt
  simp only [BitVec.toNat_ofNat]
  omega

/-- The mask of a control register's IOW row tests the head and the address. -/
theorem iow_control_mask (w : BitVec 32) {c : BitVec 32} (hc : c &&& 0xFEFFFF00#32 = c) :
    w &&& 0xFEFFFF00#32 = c ↔
      w &&& 0xFE000000#32 = c &&& 0xFE000000#32 ∧ w.extractLsb' 8 16 = c.extractLsb' 8 16 :=
  and_mask_eq_iff (by decide) rfl hc

theorem ior_control_mask (w : BitVec 24) {c : BitVec 24} (hc : c &&& 0xFEFFFF#24 = c) :
    w &&& 0xFEFFFF#24 = c ↔
      w &&& 0xFE0000#24 = c &&& 0xFE0000#24 ∧ w.extractLsb' 0 16 = c.extractLsb' 0 16 :=
  and_mask_eq_iff (by decide) rfl hc

/-- A word that matches a control register's row is the write of the address in the match. -/
theorem decodeWord_iow_control {w c : BitVec 32} (hc : c &&& 0xFEFFFF00#32 = c)
    (hhead : c &&& 0xFE000000#32 = 0x02000000#32) (h : w &&& 0xFEFFFF00#32 = c) :
    decodeWord {} .iow w.toNat =
      some (Instr.iow (w.getLsbD 24) (c.extractLsb' 8 16) (w.extractLsb' 0 4 ++ w.extractLsb' 4 4)) := by
  obtain ⟨hword, haddr⟩ := (iow_control_mask w hc).mp h
  rw [decodeWord_iow (hword.trans hhead), haddr]

theorem decodeWord_ior_control {w c : BitVec 24} (hc : c &&& 0xFEFFFF#24 = c)
    (hhead : c &&& 0xFE0000#24 = 0x000000#24) (h : w &&& 0xFEFFFF#24 = c) :
    decodeWord {} .ior w.toNat = some (Instr.ior (w.getLsbD 16) (c.extractLsb' 0 16)) := by
  obtain ⟨hword, haddr⟩ := (ior_control_mask w hc).mp h
  rw [decodeWord_ior (hword.trans hhead), haddr]

/-- The mask of the payload's IOW row tests the head and that the address is one of the buffer. -/
theorem iow_payload_mask (w : BitVec 32) :
    w &&& 0xFEFF0000#32 = 0x02000000#32 ↔
      w &&& 0xFE000000#32 = 0x02000000#32 ∧ w.extractLsb' 8 16 ≤ Config.bufLast := by
  rw [le_bufLast_iff, extract_extract w (by decide)]
  exact and_mask_eq_iff (by decide) rfl rfl

theorem ior_payload_mask (w : BitVec 24) :
    w &&& 0xFEFF00#24 = 0x000000#24 ↔
      w &&& 0xFE0000#24 = 0x000000#24 ∧ w.extractLsb' 0 16 ≤ Config.bufLast := by
  rw [le_bufLast_iff, extract_extract w (by decide)]
  exact and_mask_eq_iff (by decide) rfl rfl

/-! ### The statements -/

/-- Settles O4: each mask tests the head that makes the word a write or a read (`decodeWord_iow`, `decodeWord_ior`) and
a field of the address, which then selects the row; for the catch-all rows the failed tests leave an unmapped
address. -/
theorem maskAndMatchSelectTheCycleRows : Obligations.MaskAndMatchSelectTheCycleRows := by
  refine ⟨fun w => ⟨fun h => ?iowLength, fun h => ?iowChecksum, fun h => ?iowAck, fun h => ?iowPayload,
      fun hhead hlength hchecksum hack hpayload => ?iowNone⟩,
    fun w => ⟨fun h => ?iorLength, fun h => ?iorChecksum, fun h => ?iorAck, fun h => ?iorPayload,
      fun hhead hlength hchecksum hack hpayload => ?iorNone⟩⟩
  case iowLength => exact decodeWord_iow_control rfl rfl h
  case iowChecksum => exact decodeWord_iow_control rfl rfl h
  case iowAck => exact decodeWord_iow_control rfl rfl h
  case iowPayload =>
    obtain ⟨hhead, haddr⟩ := (iow_payload_mask w).mp h
    rw [decodeWord_iow hhead, Instr.iow_payload haddr, BitVec.setWidth_eq_extractLsb' (by decide),
      extract_extract w (by decide)]
  case iowNone =>
    have hunmapped : unmapped (w.extractLsb' 8 16) = true := (unmapped_iff _).mpr
      ⟨fun haddr => hlength ((iow_control_mask w rfl).mpr ⟨hhead, haddr⟩),
        fun haddr => hchecksum ((iow_control_mask w rfl).mpr ⟨hhead, haddr⟩),
        fun haddr => hack ((iow_control_mask w rfl).mpr ⟨hhead, haddr⟩),
        fun haddr => hpayload ((iow_payload_mask w).mpr ⟨hhead, haddr⟩)⟩
    rw [decodeWord_iow hhead, Instr.iow_unmapped hunmapped]
  case iorLength => exact decodeWord_ior_control rfl rfl h
  case iorChecksum => exact decodeWord_ior_control rfl rfl h
  case iorAck => exact decodeWord_ior_control rfl rfl h
  case iorPayload =>
    obtain ⟨hhead, haddr⟩ := (ior_payload_mask w).mp h
    rw [decodeWord_ior hhead, Instr.ior_payload haddr, BitVec.setWidth_eq_extractLsb' (by decide),
      extract_extract w (by decide)]
  case iorNone =>
    have hunmapped : unmapped (w.extractLsb' 0 16) = true := (unmapped_iff _).mpr
      ⟨fun haddr => hlength ((ior_control_mask w rfl).mpr ⟨hhead, haddr⟩),
        fun haddr => hchecksum ((ior_control_mask w rfl).mpr ⟨hhead, haddr⟩),
        fun haddr => hack ((ior_control_mask w rfl).mpr ⟨hhead, haddr⟩),
        fun haddr => hpayload ((ior_payload_mask w).mpr ⟨hhead, haddr⟩)⟩
    rw [decodeWord_ior hhead, Instr.ior_unmapped hunmapped]

/-- Settles O3: each conjunct is one written word, evaluated. -/
theorem writtenWordsDecode : Obligations.WrittenWordsDecode := by
  refine ⟨?_, ?_, ?_, ?_, ?_, ?_, ?_, ?_, ?_, ?_, ?_⟩ <;> rfl

end Sys2Proof
end

section
/-! PROOFS. The rows and the step (spec/30_encoding.md R61, R68 to R74; spec/00_scope.md section 6): what the row
functions of an event, a state and an address run, what a step can do, and the statements about the step. -/

namespace Sys2Proof.Machine

/-! ### The handlers look at the transport's registers only -/

/-- The state a read leaves, from its answer (`transportRead_frame`). -/
theorem transportRead_answer_frame {a : Addr} {s t : State} {answer : Option Byte}
    (h : transportRead a s = (answer, t)) : t = { s with checksumAcc := t.checksumAcc, owner := t.owner } := by
  simpa only [h] using transportRead_frame a s

theorem transportRead_goto (a : Addr) (c : CycleState) (s : State) :
    transportRead a (s.goto c) = ((transportRead a s).1, (transportRead a s).2.goto c) := by
  cases howner : s.owner with
  | true => rw [transportRead_owned howner, transportRead_owned (s := s.goto c) howner]
  | false =>
    rw [transportRead_of_host howner, transportRead_of_host (s := s.goto c) howner]
    split_ifs <;> rfl

theorem transportWrite_goto (a : Addr) (v : Byte) (c : CycleState) (s : State) :
    transportWrite a v (s.goto c) = (transportWrite a v s).goto c := by
  cases howner : s.owner with
  | true => rw [transportWrite_owned howner, transportWrite_owned (s := s.goto c) howner]
  | false =>
    rw [transportWrite_of_host howner, transportWrite_of_host (s := s.goto c) howner]
    split_ifs <;> rfl

/-- The Sync action does not look at the state it runs in: it names the next one itself (R100). -/
theorem actSync_goto (c : CycleState) (s : State) : actSync (s.goto c) = actSync s := by
  unfold actSync
  rw [State.goto_direction]
  split
  · rw [actSyncRead, actSyncRead, State.goto_address, transportRead_goto]
    cases transportRead s.address s with
    | mk answer t => cases answer <;> rfl
  · calc actSyncWrite (s.goto c)
      _ = (transportWrite s.address s.data ((s.setLadOut s.codes.syncReady).goto c)).goto .turnToHost0 := rfl
      _ = actSyncWrite s := by rw [transportWrite_goto]; rfl

/-! ### What the row functions run -/

/-- The EVENT row of two strobe levels is the edge after the first with the second (R80). -/
theorem exec_ofEvent (prev now : Strobe) (n : Nibble) (s : State) :
    exec (Instr.ofEvent prev now n) s = .next (edgeStep n now (s.setStrobePrev prev)) := by
  cases prev <;> cases now <;> rfl

theorem exec_ofEvent_strobePrev (strobe : Strobe) (n : Nibble) (s : State) :
    exec (Instr.ofEvent s.strobePrev strobe n) s = .next (edgeStep n strobe s) := by
  rw [exec_ofEvent, State.setStrobePrev_self rfl]

/-- The STATE row of a state is its action, whatever the current state (log 20). -/
theorem exec_ofState_goto (c : CycleState) (n : Nibble) (s : State) :
    exec (Instr.ofState c n) s = .next (stateStep n (s.goto c)) := by
  cases c with
  | sync => exact congrArg Host.Outcome.next (actSync_goto .sync s).symm
  | _ => rfl

/-- `IOW addr, v` is the write cycle of its address, whichever row that is (R72). -/
theorem exec_iow (bit0 : Bool) (a : Addr) (v : Byte) (s : State) :
    exec (Instr.iow bit0 a v) s = .next (writeCycle bit0 a v s) := by
  rcases mapped_cases a with rfl | rfl | rfl | hpayload | hunmapped
  · rfl
  · rfl
  · rfl
  · rw [Instr.iow_payload hpayload, exec, execIowPayload, payloadAddr_setWidth hpayload]
  · rw [Instr.iow_unmapped hunmapped]
    rfl

/-- `IOR addr` is the read cycle of its address, whichever row that is (R72). -/
theorem exec_ior (bit0 : Bool) (a : Addr) (s : State) :
    exec (Instr.ior bit0 a) s = .next (readCycle bit0 a s) := by
  rcases mapped_cases a with rfl | rfl | rfl | hpayload | hunmapped
  · rfl
  · rfl
  · rfl
  · rw [Instr.ior_payload hpayload, exec, execIorPayload, payloadAddr_setWidth hpayload]
  · rw [Instr.ior_unmapped hunmapped]
    rfl

/-! ### Every row completes -/

/-- A row that completes and leaves what comes next and the configuration alone. -/
def Completes (i : Instr) (s : State) : Prop :=
  ∃ t, exec i s = .next t ∧ t.pending = s.pending ∧ t.drawn = s.drawn ∧ t.codes = s.codes

theorem completes_of_runEdges {i : Instr} {s : State} {l : List Sample} (h : exec i s = .next (runEdges l s)) :
    Completes i s := by
  obtain ⟨hpending, hdrawn, -, -, hcodes⟩ := runEdges_frame l s
  exact ⟨_, h, hpending, hdrawn, hcodes⟩

theorem completes_of_readCycle {i : Instr} {s : State} {bit0 : Bool} {a : Addr}
    (h : exec i s = .next (readCycle bit0 a s)) : Completes i s := by
  obtain ⟨hpending, hdrawn, -, -, hcodes⟩ := runEdges_frame (readEdges s.codes bit0 a) (s.setHostRead none)
  exact ⟨_, h, hpending, hdrawn, hcodes⟩

/-- Settles O9: by the row functions, each row is an edge, a state action, a call or the run of a cycle's edges, and
each of these has its frame lemma. -/
theorem everyInstructionCompletes : Obligations.EveryInstructionCompletes := by
  intro i s
  cases i.row with
  | event prev now n =>
    obtain ⟨hpending, hdrawn, -, -, hcodes⟩ := edgeStep_frame n now (s.setStrobePrev prev)
    exact ⟨_, exec_ofEvent prev now n s, hpending, hdrawn, hcodes⟩
  | state c n =>
    obtain ⟨-, -, hpending, hdrawn, -, -, hcodes⟩ := stateStep_frame n (s.goto c)
    exact ⟨_, exec_ofState_goto c n s, hpending, hdrawn, hcodes⟩
  | peek => exact ⟨_, exec_peek s, rfl, rfl, rfl⟩
  | submit payload =>
    refine ⟨_, exec_submit payload s, ?_⟩
    rw [submitCall_frame]
    exact ⟨rfl, rfl, rfl⟩
  | frameStart | frameAbort | frameOther | cycMem | cycDma | cycRsvd | iowNone => exact completes_of_runEdges rfl
  | iow bit0 a v => exact completes_of_runEdges (exec_iow bit0 a v s)
  | ior bit0 a => exact completes_of_readCycle (exec_ior bit0 a s)
  | iorNone bit0 a => exact completes_of_readCycle rfl

/-! ### What a step can do -/

theorem step_of_decode {s : State} {i : Instr} (h : decode s.codes (fetchPacket s) = .ok i) :
    step s = exec i (advance s) := by
  rw [step, h]

/-- A listed cycle runs its edges, or is a line IOR. -/
theorem exec_cycle {codes : WireCodes} {k : CycleKind} {nibbles : List Nibble} {i : Instr}
    (hi : Decodes codes ⟨kindFormat k, nibbles, []⟩ i) (s : State) :
    (∃ l, exec i s = .next (runEdges l s)) ∨ ∃ bit0 a, exec i s = .next (readCycle bit0 a s) := by
  cases k with
  | frame =>
    cases hi with
    | frame code n =>
      unfold decodeFrame
      split
      · exact .inl ⟨_, rfl⟩
      · split <;> exact .inl ⟨_, rfl⟩
  | ctdir =>
    cases hi with
    | ctdir c i hrow =>
      generalize ctdirType codes c = t at hrow
      cases t <;> cases hrow <;> exact .inl ⟨_, rfl⟩
  | iow =>
    cases hi with
    | iow c n1 n2 n3 n4 lo hi htype hdir => exact .inl ⟨_, exec_iow ..⟩
  | ior =>
    cases hi with
    | ior c n1 n2 n3 n4 htype hdir => exact .inr ⟨_, _, exec_ior ..⟩

/-- What a step that answers a next state does, once what happens next is taken: a run of edges, a call, or a line IOR
(R9, R72). -/
theorem step_cases {s t : State} (h : step s = .next t) :
    (∃ l, t = runEdges l (advance s)) ∨ t = (advance s).setReply (peekReply (advance s)) ∨
      (∃ payload, t = submitCall payload (advance s)) ∨ ∃ bit0 a, t = readCycle bit0 a (advance s) := by
  have hstrobe : (advance s).strobePrev = s.strobePrev := by rw [advance_frame]
  cases hdecode : decode s.codes (fetchPacket s) with
  | error e =>
    rw [step, hdecode] at h
    cases h
  | ok i =>
    rw [step_of_decode hdecode] at h
    unfold fetchPacket at hdecode
    cases hnext : nextStimulus s with
    | act a =>
      rw [hnext] at hdecode
      cases a with
      | sample strobe n =>
        rw [decode_sample, ← hstrobe] at hdecode
        cases hdecode
        rw [exec_ofEvent_strobePrev] at h
        cases h
        exact .inl ⟨[⟨strobe, n⟩], rfl⟩
      | peek =>
        cases hdecode
        cases h
        exact .inr (.inl rfl)
      | submit payload =>
        cases hdecode
        cases h
        exact .inr (.inr (.inl ⟨payload, rfl⟩))
    | cycle k nibbles =>
      rw [hnext] at hdecode
      rcases exec_cycle (decodes_of_decode hdecode) (advance s) with ⟨l, hrun⟩ | ⟨bit0, a, hread⟩
      · rw [hrun] at h
        cases h
        exact .inl ⟨l, rfl⟩
      · rw [hread] at h
        cases h
        exact .inr (.inr (.inr ⟨bit0, a, rfl⟩))

/-- A property that does not speak of the model's own fields and that every edge and every Submit keep is kept by every
step. -/
theorem step_keeps {P : State → Prop}
    (hown : ∀ (s : State) pending drawn reply hostRead readOpen, P s → P { s with
      pending := pending, drawn := drawn, reply := reply, hostRead := hostRead, readOpen := readOpen })
    (hedge : ∀ n strobe s, P s → P (edgeStep n strobe s))
    (hsubmit : ∀ payload s, P s → P (submitCall payload s)) {s t : State} (hs : P s) (h : step s = .next t) : P t := by
  have hrun (l : List Sample) (u : State) (hu : P u) : P (runEdges l u) := by
    induction l generalizing u with
    | nil => exact hu
    | cons e rest ih => exact ih _ (hedge e.ladIn e.strobe u hu)
  have hadvance : P (advance s) := by
    rw [advance_frame]
    exact hown s _ _ _ _ _ hs
  rcases step_cases h with ⟨l, rfl⟩ | rfl | ⟨payload, rfl⟩ | ⟨bit0, a, rfl⟩
  · exact hrun l _ hadvance
  · exact hown _ _ _ _ _ _ hadvance
  · exact hsubmit payload _ hadvance
  · exact hown _ _ _ _ _ _ (hrun _ _ (hown _ _ _ _ _ _ hadvance))

/-! ### The statements about the step -/

/-- The state with what happens next taken, as one record update. -/
theorem advance_eq (s : State) : advance s = if readGoesOn s = true then s else { s with
    pending := s.pending.tail, drawn := if s.pending = [] then s.drawn + 1 else s.drawn,
    readOpen := if opensFrame (upcoming s) = true then false else s.readOpen } := by
  cases hline : readGoesOn s with
  | true => exact advance_line s hline
  | false =>
    cases hpending : s.pending with
    | cons x rest =>
      rw [advance_cons s x rest hpending hline, upcoming, hpending]
      rfl
    | nil =>
      have htake : takeUpcoming s = { s with pending := [], drawn := s.drawn + 1 } := by
        cases s
        cases hpending
        rfl
      simp only [advance, hline, htake]
      cases opensFrame (upcoming s) <;> rfl

/-- Settles O5: the step is exec of the decoded instruction after `advance`, whose updates are `advance_eq`. -/
theorem stepRunsTheDecodedInstruction : Obligations.StepRunsTheDecodedInstruction := by
  intro s
  refine ⟨fun i hdecode => ?ok, fun e hdecode => ?error⟩
  case ok => rw [step_of_decode hdecode, advance_eq]
  case error => rw [step, hdecode]

/-- A listed stimulus that decodes runs next, when no open line goes on. -/
theorem step_cons {s : State} {x : Stimulus} {rest : List Stimulus} {i : Instr} (hpending : s.pending = x :: rest)
    (hline : readGoesOn s = false) (hdecode : decode s.codes (stimulusPacket s.strobePrev x) = .ok i) :
    step s = exec i { s with pending := rest, readOpen := if opensFrame x then false else s.readOpen } := by
  rw [step_of_decode (fetchPacket_cons s x rest hpending hline ▸ hdecode), advance_cons s x rest hpending hline]

/-- Settles O6: the sample is fetched as the EVENT row of the two levels (`decode_sample`), and that row is the edge
(`exec_ofEvent`). -/
theorem edgeProcedureInTheSourceOrder : Obligations.EdgeProcedureInTheSourceOrder := by
  intro s strobe n rest hpending hline
  have hrun : step s = exec (Instr.ofEvent s.strobePrev strobe n) { s with
      pending := rest, readOpen := if strobe = .active then false else s.readOpen } := by
    rw [step_cons hpending hline (decode_sample s.codes s.strobePrev strobe n)]
    cases strobe <;> rfl
  refine ⟨hrun, fun hprev hnow => ?_, fun hprev hnow => ?_, fun hprev hnow => ?_, fun hprev hnow => ?_⟩
  all_goals
    rw [hrun, hprev, hnow]
    rfl

/-- A step of an open line that goes on is a RUN edge of it, and takes nothing of what the outside does next. -/
theorem step_line {s : State} (hline : readGoesOn s = true) : step s = exec (.run (Config.freeLadIn 14)) s := by
  obtain ⟨-, hstrobe⟩ := readGoesOn_strobe s hline
  have hdecode : decode s.codes (fetchPacket s) = .ok (.run (Config.freeLadIn 14)) := by
    rw [fetchPacket_line s hline, hstrobe]
    rfl
  rw [step_of_decode hdecode, advance_line s hline]

/-- Settles O7: calls have their selectors, the nibbles of a cycle are what the encoder writes for its address, and an
open line that goes on presents a RUN edge (`step_line`). -/
theorem callsAndCyclesAreFetched : Obligations.CallsAndCyclesAreFetched := by
  intro s rest
  refine ⟨fun hline hpending => ?peek, fun m hline hpending => ?submit, fun bit0 a v hline hpending => ?iow,
    fun bit0 a hline hpending => ?ior, fun hline => ?line⟩
  case peek => exact step_cons hpending hline rfl
  case submit => exact step_cons hpending hline rfl
  case iow =>
    rw [step_cons hpending hline (decode_encodeIow s.codes bit0 a v)]
    rfl
  case ior =>
    rw [step_cons hpending hline (decode_encodeIor s.codes bit0 a)]
    rfl
  case line => exact ⟨_, step_line hline⟩

/-- A placed stimulus that decodes runs next, with no line of the host open. -/
theorem step_place {s : State} {x : Stimulus} {i : Instr}
    (hdecode : decode s.codes (stimulusPacket s.strobePrev x) = .ok i) :
    step (s.place x) = exec i { s with readOpen := false } := by
  rw [step_cons (s := s.place x) (rest := s.pending) rfl rfl hdecode]
  cases opensFrame x <;> rfl

/-- A word that is an instruction is one of its format's width that decodes. -/
theorem decodeWord_some {codes : WireCodes} {f : Format} {w : Nat} {i : Instr} (h : decodeWord codes f w = some i) :
    w < 2 ^ f.width ∧ decode codes ⟨f, tableNibbles f w, []⟩ = .ok i := by
  unfold decodeWord at h
  split at h
  · next hw =>
    cases hdecode : decode codes ⟨f, tableNibbles f w, []⟩ with
    | ok j =>
      rw [hdecode] at h
      cases h
      exact ⟨hw, rfl⟩
    | error e =>
      rw [hdecode] at h
      cases h
  · cases h

theorem withFetchWord_of_width {nbits w : Nat} {f : Format} (hformat : tableFormat nbits = some f)
    (hw : w < 2 ^ f.width) (s : State) : s.withFetchWord nbits w = placeWord s f w := by
  rw [State.withFetchWord, placeTableWord, hformat]
  exact if_pos hw

/-- Settles O8: the word is placed as the stimulus whose packet is the word's (`step_place`); a STATE word is placed
as a RUN edge in its state, which performs that state's row. -/
theorem placedTableWordRunsNext : Obligations.PlacedTableWordRunsNext := by
  refine ⟨fun s w i => ⟨fun h => ?iow, fun h => ?ior, fun h => ?state⟩, fun w => ⟨rfl, rfl, rfl⟩⟩
  case iow =>
    obtain ⟨hw, hdecode⟩ := decodeWord_some h
    rw [withFetchWord_of_width rfl hw]
    exact step_place hdecode
  case ior =>
    obtain ⟨hw, hdecode⟩ := decodeWord_some h
    rw [withFetchWord_of_width rfl hw]
    exact step_place hdecode
  case state =>
    obtain ⟨hw, hdecode⟩ := decodeWord_some h
    have hnibble : wordNibble w 0 = BitVec.ofNat 4 w := congrArg (BitVec.ofNat 4) (Nat.div_one w)
    cases hdecode
    rw [withFetchWord_of_width rfl hw, placeWord, hnibble]
    calc step (((s.setStrobePrev .inactive).goto (CycleState.ofOrdinal (BitVec.ofNat 4 w))).place
            (.act (.sample .inactive 0#4)))
      _ = exec (.run 0#4) { s with
            strobePrev := .inactive, cycleState := CycleState.ofOrdinal (BitVec.ofNat 4 w), readOpen := false } :=
        step_place (decode_sample s.codes .inactive .inactive 0#4)
      _ = _ := (runPerformsTheActionOfTheState _ _).1

end Sys2Proof.Machine
end

section
/-! PROOFS. The invariants (spec/10_state.md R28, spec/41_cycle_state_machine.md R107, R108, spec/43_transport_read.md
R124): what an edge can do to the transport, what a Submit can do, the states an action leaves, and the statements that
every launch has the invariants and every step keeps them. -/

namespace Sys2Proof.Machine

open Sys2Proof.Safety

/-! ### What an edge can do to the transport -/

/-- The transport's registers, the buffer and the ownership are the same in both states. -/
structure SameTransport (s t : State) : Prop where
  owner : t.owner = s.owner
  buf : t.buf = s.buf
  length : t.length = s.length
  checksumAcc : t.checksumAcc = s.checksumAcc
  ack : t.ack = s.ack

theorem actSync_transport (s : State) :
    s.direction = .read ∧ SameTransport (transportRead s.address s).2 (actSync s) ∨
      s.direction = .write ∧ SameTransport (transportWrite s.address s.data s) (actSync s) := by
  unfold actSync
  cases hdir : s.direction with
  | read =>
    refine .inl ⟨rfl, ?_⟩
    simp only [actSyncRead]
    cases transportRead s.address s with
    | mk answer t => cases answer <;> exact ⟨rfl, rfl, rfl, rfl, rfl⟩
  | write =>
    refine .inr ⟨rfl, ?_⟩
    simp only [actSyncWrite, transportWrite_setLadOut]
    exact ⟨rfl, rfl, rfl, rfl, rfl⟩

/-- Of the sixteen actions only that of Sync reaches the transport (R100). -/
theorem stateStep_transport (n : Nibble) {s : State} (h : s.cycleState ≠ .sync) : SameTransport s (stateStep n s) := by
  unfold stateStep
  cases hc : s.cycleState with
  | sync => exact absurd hc h
  | _ => exact ⟨rfl, rfl, rfl, rfl, rfl⟩

theorem frameTarget_cases (codes : WireCodes) (code : Nibble) :
    frameTarget codes code = .cycTypeAndDir ∨ frameTarget codes code = .abort ∨ frameTarget codes code = .idle := by
  unfold frameTarget
  split_ifs
  · exact .inl rfl
  · exact .inr (.inl rfl)
  · exact .inr (.inr rfl)

/-- An edge leaves the transport alone, or it is a RUN in Sync and one call of a handler. -/
theorem edgeStep_transport (n : Nibble) (strobe : Strobe) (s : State) :
    SameTransport s (edgeStep n strobe s) ∨
      s.strobePrev = .inactive ∧ strobe = .inactive ∧ s.cycleState = .sync ∧
        (s.direction = .read ∧ SameTransport (transportRead s.address s).2 (edgeStep n strobe s) ∨
          s.direction = .write ∧ SameTransport (transportWrite s.address s.data s) (edgeStep n strobe s)) := by
  cases hprev : s.strobePrev <;> cases strobe
  case inactive.active =>
    rw [edgeStep_fall n s hprev]
    exact .inl ⟨rfl, rfl, rfl, rfl, rfl⟩
  case active.active =>
    rw [edgeStep_hold n s hprev]
    exact .inl ⟨rfl, rfl, rfl, rfl, rfl⟩
  case active.inactive =>
    rw [edgeStep_rise n s hprev]
    have hstate : ((s.setStrobePrev .inactive).goto (frameTarget s.codes s.frameInfo)).cycleState ≠ .sync := by
      rcases frameTarget_cases s.codes s.frameInfo with h | h | h <;> simp [h]
    obtain ⟨howner, hbuf, hlength, hacc, hack⟩ := stateStep_transport n hstate
    exact .inl ⟨howner, hbuf, hlength, hacc, hack⟩
  case inactive.inactive =>
    rw [edgeStep_run n s hprev, runEdge, State.setStrobePrev_self hprev]
    by_cases hsync : s.cycleState = .sync
    · have hact : stateStep n s = actSync s := by rw [stateStep, hsync]
      rw [hact]
      exact .inr ⟨rfl, rfl, hsync, actSync_transport s⟩
    · exact .inl (stateStep_transport n hsync)

/-! ### What a Submit can do -/

/-- A Submit fails and writes its reply only, or is accepted (R132 to R134). -/
theorem submitCall_cases (payload : List Byte) (s : State) :
    submitCall payload s = s.setReply .failed ∨
      s.owner = true ∧ payload.length ≤ Config.bufSize ∧ submitCall payload s = acceptSubmit payload s := by
  cases howner : s.owner with
  | false => exact .inl (submitCall_of_host howner payload)
  | true =>
    by_cases hlen : payload.length ≤ Config.bufSize
    · unfold submitCall submitFull
      rw [if_neg (by simp [howner])]
      split_ifs
      · exact .inr ⟨rfl, hlen, rfl⟩
      · cases Config.submit256 with
        | failed => exact .inl rfl
        | lengthZero => exact .inr ⟨rfl, hlen, rfl⟩
      · exact .inl rfl
    · exact .inl (submitCall_overlong (Nat.lt_of_not_le hlen) s)

/-! ### The handoff (R124, D19) -/

theorem handoffOk_congr {s t : State} (h : SameTransport s t) (hs : HandoffOk s) : HandoffOk t := by
  unfold HandoffOk
  rw [h.owner, h.ack, h.checksumAcc]
  exact hs

theorem handoffOk_of_host {s : State} (howner : s.owner = false) : HandoffOk s := by
  intro howned
  rw [howner] at howned
  cases howned

/-- The only read that gives the buffer to the application is that of Ack holding the pass byte, which clears the
accumulator. -/
theorem handoffOk_transportRead (a : Addr) {s : State} (hs : HandoffOk s) : HandoffOk (transportRead a s).2 := by
  rcases transportRead_cases a s with ⟨-, h⟩ | ⟨howner, -, h⟩ | ⟨-, -, h⟩ | ⟨howner, -, h⟩ | ⟨howner, -, h⟩ |
    ⟨-, -, h⟩
  · rwa [h]
  · rw [h]
    exact handoffOk_of_host howner
  · rwa [h, readChecksum]
  · rw [h]
    intro howned
    simp only [readAck, State.setOwner_owner, howner, ownerAfterAck_of_host, decide_eq_true_eq] at howned
    exact ⟨howned, rfl⟩
  · rw [h]
    exact handoffOk_of_host howner
  · rwa [h]

/-- No write gives the buffer to the application, and while it has it every write is dropped (R111). -/
theorem handoffOk_transportWrite (a : Addr) (v : Byte) {s : State} (hs : HandoffOk s) :
    HandoffOk (transportWrite a v s) := by
  cases howner : s.owner with
  | true => rwa [transportWrite_owned howner]
  | false =>
    apply handoffOk_of_host
    rw [transportWrite_frame]
    exact howner

theorem handoffOk_edgeStep (n : Nibble) (strobe : Strobe) {s : State} (hs : HandoffOk s) :
    HandoffOk (edgeStep n strobe s) := by
  rcases edgeStep_transport n strobe s with h | ⟨-, -, -, ⟨-, h⟩ | ⟨-, h⟩⟩
  · exact handoffOk_congr h hs
  · exact handoffOk_congr h (handoffOk_transportRead s.address hs)
  · exact handoffOk_congr h (handoffOk_transportWrite s.address s.data hs)

theorem handoffOk_submitCall (payload : List Byte) {s : State} (hs : HandoffOk s) :
    HandoffOk (submitCall payload s) := by
  rcases submitCall_cases payload s with h | ⟨-, -, h⟩
  · rw [h]
    exact hs
  · rw [h]
    exact handoffOk_of_host rfl

/-- Settles O59: each handler and each Submit keeps the invariant, and nothing else reaches the transport
(`edgeStep_transport`). -/
theorem stepsKeepTheHandoffInvariant : Obligations.StepsKeepTheHandoffInvariant := by
  intro s t hs hstep
  exact step_keeps (fun _ _ _ _ _ _ h => h) (fun n strobe _ => handoffOk_edgeStep n strobe)
    (fun payload _ => handoffOk_submitCall payload) hs hstep

/-! ### The buffer's form (log 9) -/

theorem bufferOk_congr {s t : State} (h : SameTransport s t) (hs : BufferOk s) : BufferOk t := by
  rwa [BufferOk, h.buf]

theorem bufferOk_transportWrite (a : Addr) (v : Byte) {s : State} (hs : BufferOk s) :
    BufferOk (transportWrite a v s) := by
  rcases transportWrite_cases a v s with ⟨-, h⟩ | ⟨-, -, h⟩ | ⟨-, -, h⟩ | ⟨-, -, h⟩ | ⟨-, -, h⟩ | ⟨-, -, h⟩
  case inr.inr.inr.inr.inl =>
    rw [h]
    exact Memory.put_wf hs v (payloadOffset_lt a)
  all_goals
    rw [h]
    exact hs

theorem bufferOk_edgeStep (n : Nibble) (strobe : Strobe) {s : State} (hs : BufferOk s) :
    BufferOk (edgeStep n strobe s) := by
  rcases edgeStep_transport n strobe s with h | ⟨-, -, -, ⟨-, h⟩ | ⟨-, h⟩⟩
  · exact bufferOk_congr h hs
  · apply bufferOk_congr h
    rw [transportRead_frame]
    exact hs
  · exact bufferOk_congr h (bufferOk_transportWrite s.address s.data hs)

theorem bufferOk_submitCall (payload : List Byte) {s : State} (hs : BufferOk s) :
    BufferOk (submitCall payload s) := by
  rcases submitCall_cases payload s with h | ⟨-, hlen, h⟩
  · rw [h]
    exact hs
  · rw [h]
    exact Memory.putBytes_wf hs payload (by omega)

/-- Settles O60: the buffer is written by a payload write and by an accepted Submit only, both within its 256
bytes. -/
theorem stepsKeepTheBufferCanonical : Obligations.StepsKeepTheBufferCanonical := by
  intro s t hs hstep
  exact step_keeps (fun _ _ _ _ _ _ h => h) (fun n strobe _ => bufferOk_edgeStep n strobe)
    (fun payload _ => bufferOk_submitCall payload) hs hstep

end Sys2Proof.Machine
end

section
/-! PROOFS. The decoder's invariant (spec/41_cycle_state_machine.md R91, R98 to R103, R107, R108): what each action
leaves, and the statements that every launch has the invariants and every step keeps the decoder's. -/

namespace Sys2Proof.Machine

open Sys2Proof.Safety

/-! ### The invariant at a known state of the machine -/

/-- The decoder's invariant with the strobe inactive, at a known state of the machine. CycTypeAndDir is not shut out:
a RISE acts in it (R84). -/
structure ReadyAt (c : CycleState) (s : State) : Prop where
  state : s.cycleState = c
  strobe : s.strobePrev = .inactive
  lines : s.ladDir = bif driving c then .peripheral else .host
  type : inCycle c = true → s.cycType = .io
  dir : ∀ d, stateDirection c = some d → s.direction = d
  latch : ∀ n, latched s.codes c s.direction s.data = some n → s.ladOut = n

/-- The lines are driven in exactly the driving states, said as the direction they have. -/
theorem ladDir_iff (d : LineDir) (drives : Bool) :
    (d = .peripheral ↔ drives = true) ↔ d = bif drives then .peripheral else .host := by
  cases d <;> cases drives <;> simp

theorem ReadyAt.decoderOk {c : CycleState} {s : State} (h : ReadyAt c s) (hc : c ≠ .cycTypeAndDir) :
    DecoderOk s := by
  obtain ⟨rfl, hstrobe, hlines, htype, hdir, hlatch⟩ := h
  refine ⟨hc, fun hactive => ?_, (ladDir_iff _ _).mpr hlines, htype, hdir, hlatch⟩
  rw [hstrobe] at hactive
  cases hactive

theorem readyAt_of_decoderOk {s : State} (h : DecoderOk s) (hstrobe : s.strobePrev = .inactive) :
    ReadyAt s.cycleState s := by
  obtain ⟨-, -, hlines, htype, hdir, hlatch⟩ := h
  exact ⟨rfl, hstrobe, (ladDir_iff _ _).mp hlines, htype, hdir, hlatch⟩

/-! ### What each action leaves -/

theorem decoderOk_actCycTypeAndDir (n : Nibble) {s : State} (h : ReadyAt .cycTypeAndDir s) :
    DecoderOk (actCycTypeAndDir n s) := by
  cases htype : ctdirType s.codes n with
  | io =>
    have hready : ReadyAt .addr0 (actCycTypeAndDir n s) := by
      rw [actCycTypeAndDir, htype]
      exact ⟨rfl, h.strobe, h.lines, fun _ => rfl, nofun, nofun⟩
    exact hready.decoderOk nofun
  | _ =>
    have hready : ReadyAt .idle (actCycTypeAndDir n s) := by
      rw [actCycTypeAndDir, htype]
      exact ⟨rfl, h.strobe, h.lines, nofun, nofun, nofun⟩
    exact hready.decoderOk nofun

theorem decoderOk_actAddr3 (n : Nibble) {s : State} (h : ReadyAt .addr3 s) : DecoderOk (actAddr3 n s) := by
  cases hdir : s.direction with
  | read =>
    have hready : ReadyAt .turnToPeripheral0 (actAddr3 n s) := by
      rw [actAddr3, hdir]
      exact ⟨rfl, h.strobe, h.lines, h.type, nofun, nofun⟩
    exact hready.decoderOk nofun
  | write =>
    have hready : ReadyAt .dataWrite0 (actAddr3 n s) := by
      rw [actAddr3, hdir]
      exact ⟨rfl, h.strobe, h.lines, h.type, fun _ hd => hdir.trans (Option.some.inj hd), nofun⟩
    exact hready.decoderOk nofun

/-- Sync in a read: the wait code and Sync again, or the ready code and DataRead0; in a write: the ready code and
TurnToHost0. The handlers touch no register of the decoder. -/
theorem decoderOk_actSync {s : State} (h : ReadyAt .sync s) : DecoderOk (actSync s) := by
  cases hdir : s.direction with
  | read =>
    have hact : actSync s = actSyncRead s := by rw [actSync, hdir]
    rw [hact, actSyncRead]
    cases hread : transportRead s.address s with
    | mk answer t =>
      rw [transportRead_answer_frame hread]
      cases answer with
      | none =>
        have hready : ReadyAt .sync (actDrive s.codes.syncShortWait .sync
            { s with checksumAcc := t.checksumAcc, owner := t.owner }) := by
          refine ⟨rfl, h.strobe, h.lines, h.type, nofun, fun n hn => ?_⟩
          have hcode : turnCode s.codes s.direction = n := Option.some.inj hn
          rwa [hdir] at hcode
        exact hready.decoderOk nofun
      | some b =>
        have hready : ReadyAt .dataRead0 (actDrive s.codes.syncReady .dataRead0
            (({ s with checksumAcc := t.checksumAcc, owner := t.owner } : State).setData b)) :=
          ⟨rfl, h.strobe, h.lines, h.type, fun _ hd => hdir.trans (Option.some.inj hd),
            fun _ hn => Option.some.inj hn⟩
        exact hready.decoderOk nofun
  | write =>
    have hready : ReadyAt .turnToHost0 (actSync s) := by
      have hact : actSync s = actSyncWrite s := by rw [actSync, hdir]
      rw [hact, actSyncWrite, transportWrite_frame]
      refine ⟨rfl, h.strobe, h.lines, h.type, nofun, fun n hn => ?_⟩
      simp only [latched, State.goto_direction, State.setLadOut_direction, hdir] at hn
      exact Option.some.inj hn
    exact hready.decoderOk nofun

theorem decoderOk_actDataRead1 {s : State} (h : ReadyAt .dataRead1 s) : DecoderOk (actDataRead1 s) := by
  have hdir : s.direction = .read := h.dir .read rfl
  have hready : ReadyAt .turnToHost0 (actDataRead1 s) := by
    refine ⟨rfl, h.strobe, h.lines, h.type, nofun, fun n hn => ?_⟩
    have hcode : latched s.codes .turnToHost0 s.direction s.data = some n := hn
    rw [hdir] at hcode
    exact Option.some.inj hcode
  exact hready.decoderOk nofun

/-- An action at an edge leaves the invariant (R90). -/
theorem decoderOk_stateStep (n : Nibble) {c : CycleState} {s : State} (h : ReadyAt c s) :
    DecoderOk (stateStep n s) := by
  unfold stateStep
  rw [h.state]
  cases c with
  | idle => exact ReadyAt.decoderOk (c := .idle) ⟨rfl, h.strobe, h.lines, nofun, nofun, nofun⟩ nofun
  | cycTypeAndDir => exact decoderOk_actCycTypeAndDir n h
  | addr0 => exact ReadyAt.decoderOk (c := .addr1) ⟨rfl, h.strobe, h.lines, h.type, nofun, nofun⟩ nofun
  | addr1 => exact ReadyAt.decoderOk (c := .addr2) ⟨rfl, h.strobe, h.lines, h.type, nofun, nofun⟩ nofun
  | addr2 => exact ReadyAt.decoderOk (c := .addr3) ⟨rfl, h.strobe, h.lines, h.type, nofun, nofun⟩ nofun
  | addr3 => exact decoderOk_actAddr3 n h
  | dataWrite0 =>
    exact ReadyAt.decoderOk (c := .dataWrite1) ⟨rfl, h.strobe, h.lines, h.type, h.dir, nofun⟩ nofun
  | dataWrite1 =>
    exact ReadyAt.decoderOk (c := .turnToPeripheral0) ⟨rfl, h.strobe, h.lines, h.type, nofun, nofun⟩ nofun
  | turnToPeripheral0 =>
    exact ReadyAt.decoderOk (c := .turnToPeripheral1)
      ⟨rfl, h.strobe, h.lines, h.type, nofun, fun _ hn => Option.some.inj hn⟩ nofun
  | turnToPeripheral1 =>
    exact ReadyAt.decoderOk (c := .sync) ⟨rfl, h.strobe, rfl, h.type, nofun, h.latch⟩ nofun
  | sync => exact decoderOk_actSync h
  | dataRead0 =>
    exact ReadyAt.decoderOk (c := .dataRead1)
      ⟨rfl, h.strobe, h.lines, h.type, h.dir, fun _ hn => Option.some.inj hn⟩ nofun
  | dataRead1 => exact decoderOk_actDataRead1 h
  | turnToHost0 =>
    exact ReadyAt.decoderOk (c := .turnToHost1)
      ⟨rfl, h.strobe, h.lines, h.type, nofun, fun _ hn => Option.some.inj hn⟩ nofun
  | turnToHost1 => exact ReadyAt.decoderOk (c := .idle) ⟨rfl, h.strobe, rfl, nofun, nofun, nofun⟩ nofun
  | abort => exact ReadyAt.decoderOk (c := .abort) ⟨rfl, h.strobe, h.lines, nofun, nofun, nofun⟩ nofun

/-- A RISE acts in one of three states, none of which drives the lines: while the strobe is active the machine is
idle. -/
theorem decoderOk_riseEdge (n : Nibble) {s : State} (hs : DecoderOk s) (hprev : s.strobePrev = .active) :
    DecoderOk (riseEdge n s) := by
  obtain ⟨-, hidle, hlines, -⟩ := hs
  have hhost : s.ladDir = .host := by
    rw [hidle hprev] at hlines
    exact (ladDir_iff _ _).mp hlines
  unfold riseEdge
  rcases frameTarget_cases s.codes s.frameInfo with h | h | h <;> rw [h]
  · exact decoderOk_stateStep (c := .cycTypeAndDir) n ⟨rfl, rfl, hhost, nofun, nofun, nofun⟩
  · exact decoderOk_stateStep (c := .abort) n ⟨rfl, rfl, hhost, nofun, nofun, nofun⟩
  · exact decoderOk_stateStep (c := .idle) n ⟨rfl, rfl, hhost, nofun, nofun, nofun⟩

theorem decoderOk_edgeStep (n : Nibble) (strobe : Strobe) {s : State} (hs : DecoderOk s) :
    DecoderOk (edgeStep n strobe s) := by
  cases hprev : s.strobePrev <;> cases strobe
  case inactive.active =>
    rw [edgeStep_fall n s hprev]
    exact ⟨nofun, fun _ => rfl, iff_of_false nofun nofun, nofun, nofun, nofun⟩
  case active.active =>
    obtain ⟨hstate, hidle, hrest⟩ := hs
    rw [edgeStep_hold n s hprev]
    exact ⟨hstate, fun _ => hidle hprev, hrest⟩
  case active.inactive =>
    rw [edgeStep_rise n s hprev]
    exact decoderOk_riseEdge n hs hprev
  case inactive.inactive =>
    rw [edgeStep_run n s hprev, runEdge, State.setStrobePrev_self hprev]
    exact decoderOk_stateStep n (readyAt_of_decoderOk hs hprev)

/-! ### The statements -/

/-- Settles O58: each edge keeps the invariant (`decoderOk_edgeStep`), a call touches no register of the decoder, and
no edge and no call writes the codes. -/
theorem stepsKeepTheDecoderInvariant : Obligations.StepsKeepTheDecoderInvariant := by
  refine ⟨fun s t hs hstep => ?invariant, fun s t hstep => ?codes⟩
  case invariant =>
    refine step_keeps (fun _ _ _ _ _ _ h => h) (fun n strobe _ => decoderOk_edgeStep n strobe)
      (fun payload u hu => ?_) hs hstep
    rw [submitCall_frame]
    exact hu
  case codes =>
    refine step_keeps (P := fun u => u.codes = s.codes) (fun _ _ _ _ _ _ h => h) (fun n strobe u hu => ?_)
      (fun payload u hu => ?_) rfl hstep
    · obtain ⟨-, -, -, -, hcodes⟩ := edgeStep_frame n strobe u
      exact hcodes.trans hu
    · rw [submitCall_frame]
      exact hu

theorem decoderOk_initial (l : Launch) : DecoderOk (State.initial l) :=
  ⟨nofun, fun _ => rfl, iff_of_false nofun nofun, nofun, nofun, nofun⟩

/-- Settles O57: after a launch the machine is idle with the lines given back, and the transport has the buffer. -/
theorem launchedStatesAreSafe : Obligations.LaunchedStatesAreSafe := by
  have launched (l : Launch) (hbuf : l.buf.wf = true) (hcodes : l.codes.wf = true) : Safe (State.initial l) :=
    ⟨decoderOk_initial l, handoffOk_of_host rfl, hbuf, hcodes⟩
  exact ⟨launched, launched {} rfl rfl⟩

/-- Settles O55: initialisation is one record, and the statement names its fields. -/
theorem initialValues : Obligations.InitialValues := by
  intro l
  exact ⟨rfl, rfl, rfl, rfl, rfl, rfl, rfl, rfl, rfl, rfl, rfl, rfl, rfl, rfl, rfl, rfl, rfl, rfl⟩

end Sys2Proof.Machine
end

section
/-! PROOFS. Frames, dropped cycles and write cycles (spec/40_frame_sampler.md R84 to R88, spec/41_cycle_state_machine.md
R91, R101 to R104, R109, spec/42_transport_write.md R110 to R116): what a frame and a write leave, whoever runs their
edges, and the statements about them. -/

namespace Sys2Proof.Machine

open Sys2Proof.Safety Sys2Proof.Claims

/-! ### Frames -/

/-- A frame that begins with a falling edge, with any held codes before the last, and the RISE edge: the last code
selects the state whose action runs (R82 to R84, R87). -/
theorem runEdges_frameStream {s : State} (hprev : s.strobePrev = .inactive) (x : Nibble) (holds : List Nibble)
    (c n : Nibble) (rest : List Sample) :
    runEdges (⟨.active, x⟩ :: (holds.map (Sample.mk .active) ++ ⟨.active, c⟩ :: ⟨.inactive, n⟩ :: rest)) s =
      runEdges rest (stateStep n { s with
        strobePrev := .inactive, ladDir := .host, frameInfo := c, cycleState := frameTarget s.codes c }) := by
  rw [runEdges_cons, edgeStep_fall x s hprev, runEdges_append, runEdges_holds holds (fallEdge s) rfl]
  rfl

/-- Settles O14: the FALL and the held codes leave nothing but the last code (`runEdges_frameStream`), and a frame of
one active edge holds none. -/
theorem theLastHoldOfAFrameDecides : Obligations.TheLastHoldOfAFrameDecides := by
  intro s x n hprev
  refine ⟨fun holds c => runEdges_frameStream hprev x holds c n [], ?_⟩
  rw [runEdges_cons, edgeStep_fall x s hprev]
  rfl

/-- An action that does not consume the nibble is the same for every nibble (R109). -/
theorem stateStep_of_not_consumes {s : State} (h : consumes s.cycleState = false) (n m : Nibble) :
    stateStep n s = stateStep m s := by
  unfold stateStep
  cases hstate : s.cycleState with
  | cycTypeAndDir | addr0 | addr1 | addr2 | addr3 | dataWrite0 | dataWrite1 =>
    rw [hstate] at h
    cases h
  | _ => rfl

/-- Settles O15: FALL discards the nibble, HOLD is shut out, and RISE and RUN hand it to the acting state only. -/
theorem unconsumedNibblesDoNotMatter : Obligations.UnconsumedNibblesDoNotMatter := by
  intro s strobe n m hactive hinactive
  rw [exec_ofEvent_strobePrev, exec_ofEvent_strobePrev]
  cases strobe with
  | active => rw [edgeStep_fall n s (hactive rfl), edgeStep_fall m s (hactive rfl)]
  | inactive =>
    have hacting := hinactive rfl
    cases hprev : s.strobePrev with
    | active =>
      rw [actingState, hprev] at hacting
      rw [edgeStep_rise n s hprev, edgeStep_rise m s hprev]
      exact congrArg _ (stateStep_of_not_consumes
        (s := (s.setStrobePrev .inactive).goto (frameTarget s.codes s.frameInfo)) hacting n m)
    | inactive =>
      rw [actingState, hprev] at hacting
      rw [edgeStep_run n s hprev, edgeStep_run m s hprev]
      exact congrArg _ (stateStep_of_not_consumes (s := s.setStrobePrev .inactive) hacting n m)

/-- A whole frame and its RISE edge from any state (R63, R84). -/
theorem frameCycle_eq (code n : Nibble) (s : State) :
    frameCycle code n s = stateStep n ((framed code s).goto (frameTarget s.codes code)) :=
  runEdges_frameEdges code n s

/-- A start frame runs the CycTypeAndDir action, which names the next state itself. -/
theorem frameCycle_start (n : Nibble) (s : State) :
    frameCycle s.codes.frameStart n s = actCycTypeAndDir n (framed s.codes.frameStart s) := by
  rw [frameCycle_eq, frameTarget_start rfl]
  rfl

theorem ctdirTarget_ctdirType (codes : WireCodes) (n : Nibble) :
    ctdirTarget (ctdirType codes n) = if n.extractLsb' 2 2 = codes.cycTypeIo then .addr0 else .idle := by
  simp only [ctdirType]
  split_ifs <;> rfl

/-- Settles O24: a frame's RISE runs the action of its code's target (`frameCycle_eq`), which for start goes on with the
nibble and for the other codes is no write. -/
theorem frameCodesSelect : Obligations.FrameCodesSelect := by
  intro n s hcodes
  obtain ⟨hframe, -⟩ := s.codes.wf_iff.mp hcodes
  refine ⟨congrArg _ (frameCycle_start n s), ⟨_, rfl, ?target⟩, ?abort, fun code hs ha => ?other⟩
  case target =>
    rw [frameCycle_start, ← ctdirTarget_ctdirType]
    rfl
  case abort =>
    calc exec (.frameAbort n) s
      _ = .next (frameCycle s.codes.frameAbort n s) := rfl
      _ = .next ((framed s.codes.frameAbort s).goto .abort) := by
        rw [frameCycle_eq, frameTarget_abort hframe.symm rfl, stateStep_abort rfl]
  case other =>
    calc exec (.frameOther code n) s
      _ = .next (frameCycle code n s) := rfl
      _ = .next ((framed code s).goto .idle) := by
        rw [frameCycle_eq, frameTarget_other hs ha, stateStep_idle rfl]

/-- A start frame with the CTDIR nibble of a type and a direction (R91). -/
theorem droppedCycle_eq {s : State} (hcodes : s.codes.wf = true) (t : CycleType) (d : Direction) (bit0 : Bool) :
    droppedCycle t d bit0 s =
      { framed s.codes.frameStart s with cycleState := ctdirTarget t, cycType := t, direction := d } := by
  have hcode : (ctdirNibble s.codes t d bit0).extractLsb' 2 2 = typeCode s.codes t := ctdirNibble_type ..
  have hdir : ctdirDirection (framed s.codes.frameStart s).codes (ctdirNibble s.codes t d bit0) = d :=
    ctdirDirection_nibble ..
  rw [droppedCycle, frameCycle_start, actCycTypeAndDir_of_code (s := framed s.codes.frameStart s) hcodes hcode, hdir]
  rfl

/-- Settles O25: the target of the three types is Idle (`droppedCycle_eq`). -/
theorem otherCycleTypesAreDropped : Obligations.OtherCycleTypesAreDropped := by
  intro d bit0 s hcodes
  exact ⟨congrArg _ (droppedCycle_eq hcodes .memory d bit0), congrArg _ (droppedCycle_eq hcodes .dma d bit0),
    congrArg _ (droppedCycle_eq hcodes .reserved d bit0)⟩

/-! ### The last states of a read -/

/-- Settles O22: each row is one drive or one turn; the host has the byte when the block drove its two nibbles. -/
theorem readDataAndRelease : Obligations.ReadDataAndRelease := by
  intro n s
  refine ⟨rfl, ?high, rfl, rfl, fun t hturn => ?shown⟩
  case high =>
    calc exec (.stDataRead1 n) s
      _ = .next (actDataRead1 s) := rfl
      _ = _ := by
        by_cases hlines : s.ladDir = .peripheral
        · rw [actDataRead1_driven s hlines, if_pos hlines]
          rfl
        · have hhost : s.ladDir = .host := (ladDir_iff s.ladDir false).mp (iff_of_false hlines nofun)
          rw [actDataRead1_released s hhost, if_neg hlines]
          rfl
  case shown =>
    cases hturn
    rfl

/-! ### Write cycles -/

/-- The CTDIR nibble of an I/O cycle, after its frame (R91). -/
theorem actCycTypeAndDir_io (d : Direction) (bit0 : Bool) (s : State) :
    actCycTypeAndDir (ctdirNibble s.codes .io d bit0) s =
      { s with cycType := .io, direction := d, cycleState := .addr0 } := by
  rw [actCycTypeAndDir, ctdirType_io_nibble, ctdirDirection_nibble]
  rfl

/-- A write cycle is one call of the write handler over the decoder's registers of R62. -/
theorem writeCycle_eq (bit0 : Bool) (a : Addr) (v : Byte) (s : State) :
    writeCycle bit0 a v s = transportWrite a v (afterWrite a v s) := by
  have hctdir := actCycTypeAndDir_io .write bit0 (framed s.codes.frameStart s)
  calc writeCycle bit0 a v s
    _ = runEdges ((addrNibbles a ++ [lowNibble v, highNibble v]).map dataEdge ++ [9, 10, 11, 12, 13].map freeEdge)
          (frameCycle s.codes.frameStart (ctdirNibble s.codes .io .write bit0) s) := runEdges_append ..
    _ = runEdges ((addrNibbles a ++ [lowNibble v, highNibble v]).map dataEdge ++ [9, 10, 11, 12, 13].map freeEdge)
          { framed s.codes.frameStart s with cycType := .io, direction := .write, cycleState := .addr0 } := by
      rw [frameCycle_start]
      exact congrArg _ hctdir
    _ = transportWrite a v (afterWrite a v s) := runEdges_writeTail a v _ _ _ _ _ _ rfl rfl rfl

/-- So does the IOW row of its address, whichever row that is. -/
theorem exec_iow_eq (bit0 : Bool) (a : Addr) (v : Byte) (s : State) :
    exec (Instr.iow bit0 a v) s = .next (transportWrite a v (afterWrite a v s)) := by
  rw [exec_iow, writeCycle_eq]

/-- Settles O26: the cycle's one call of the handler is `writeLength`. -/
theorem writeOfLength : Obligations.WriteOfLength := by
  intro bit0 v s howner
  refine (exec_iow_eq bit0 Config.addrLength v s).trans ?_
  rw [transportWrite_length (s := afterWrite Config.addrLength v s) howner rfl]
  rfl

/-- Settles O27: the cycle's one call of the handler is `writeChecksum`. -/
theorem writeOfChecksum : Obligations.WriteOfChecksum := by
  intro bit0 v s howner
  refine (exec_iow_eq bit0 Config.addrChecksum v s).trans ?_
  rw [transportWrite_checksum (s := afterWrite Config.addrChecksum v s) howner rfl]
  rfl

/-- Settles O28: the cycle's one call of the handler is `writeAck`. -/
theorem writeOfAck : Obligations.WriteOfAck := by
  intro bit0 v s howner
  refine (exec_iow_eq bit0 Config.addrAck v s).trans ?_
  rw [transportWrite_ack (s := afterWrite Config.addrAck v s) howner rfl]
  rfl

/-- The state after a payload write by the host (R115). -/
theorem exec_iowPayload_of_host {s : State} (howner : s.owner = false) (bit0 : Bool) (offset v : Byte) :
    exec (.iowPayload bit0 offset v) s = .next { afterWrite (payloadAddr offset) v s with
      buf := s.buf.put offset.toNat v, checksumAcc := s.checksumAcc + v } := by
  rw [← Instr.iow_payloadAddr, exec_iow_eq,
    transportWrite_payload (s := afterWrite (payloadAddr offset) v s) howner (payloadAddr_le offset), writePayload,
    payloadOffset_payloadAddr]
  rfl

/-- Settles O29: the byte goes to the operand's own offset (`payloadOffset_payloadAddr`), and a write over a canonical
buffer leaves the other offsets (`Memory.get_put`). -/
theorem writeOfPayload : Obligations.WriteOfPayload := by
  intro bit0 offset v s howner hbuf
  exact ⟨_, exec_iowPayload_of_host howner bit0 offset v, rfl, BitVec.toNat_add s.checksumAcc v,
    fun x => Memory.get_put hbuf offset.toNat v x⟩

/-- Settles O30: past the last control register the handler does nothing. -/
theorem writeOfAnyOtherAddress : Obligations.WriteOfAnyOtherAddress := by
  intro bit0 a v s ha
  calc exec (.iowNone bit0 a v) s
    _ = .next (transportWrite a v (afterWrite a v s)) := congrArg _ (writeCycle_eq bit0 a v s)
    _ = .next (afterWrite a v s) := by rw [transportWrite_above ha]

/-- Settles O31: the ownership gate stops the handler before it looks at the address. -/
theorem writesAreDroppedWhileTheApplicationOwns : Obligations.WritesAreDroppedWhileTheApplicationOwns := by
  intro bit0 a v s howner
  rw [exec_iow_eq, transportWrite_owned (s := afterWrite a v s) howner]

/-- Settles O32: the frame leaves the start code (`runEdges_frameStream`), its RISE takes the CTDIR nibble, and the
eleven edges after it make one call of the handler (`runEdges_writeTail`), which touches no register of the decoder. -/
theorem decoderIntegration : Obligations.DecoderIntegration := by
  intro s x holds bit0 a v y0 y1 y2 y3 y4 hprev
  refine ⟨?run, ?rest⟩
  case run =>
    have hctdir := actCycTypeAndDir_io .write bit0 { s with
      strobePrev := .inactive, ladDir := .host, frameInfo := s.codes.frameStart, cycleState := .cycTypeAndDir }
    rw [runEdges_frameStream hprev, frameTarget_start rfl]
    refine (congrArg (runEdges _) hctdir).trans ?_
    exact runEdges_writeTail a v _ y0 y1 y2 y3 y4 rfl rfl rfl
  case rest =>
    rw [transportWrite_frame]
    exact ⟨.inl rfl, rfl, rfl⟩

end Sys2Proof.Machine
end

section
/-! PROOFS. Read cycles and the lines (spec/43_transport_read.md R120 to R126, spec/30_encoding.md R62,
spec/20_memory.md R49): what a read leaves when the handler answers and when it fails, what the lines show in a cycle, and the statements
about them. -/

namespace Sys2Proof.Machine

open Sys2Proof.Safety Sys2Proof.Claims

/-! ### Read cycles -/

/-- The IOR row of an address whose handler answers at the first Sync edge. -/
theorem exec_ior_answered {bit0 : Bool} {a : Addr} {s t : State} {v : Byte}
    (h : transportRead a (readInSync a (s.setHostRead none)) = (some v, t)) :
    exec (Instr.ior bit0 a) s = .next { t with
      cycleState := .idle, data := v, ladOut := 0xF#4, ladDir := .host, hostRead := some v, readOpen := false } := by
  rw [exec_ior, readCycle_completes bit0 a s t v h]

/-- A read fails while the application owns the buffer, and of an address past the last control register (R121,
R126). -/
theorem transportRead_fails {a : Addr} {s : State} (h : s.owner = true ∨ 0x0103#16 ≤ a) :
    transportRead a s = (none, s) :=
  h.elim (fun howner => transportRead_owned howner a) (fun ha => transportRead_above ha s)

theorem readCycle_held (bit0 : Bool) {a : Addr} {s : State} (h : s.owner = true ∨ 0x0103#16 ≤ a) :
    readCycle bit0 a s = heldInSync a s :=
  readCycle_waits bit0 a s (transportRead_fails h)

/-- Settles O33: the handler answers with `length`. -/
theorem readOfLength : Obligations.ReadOfLength := by
  intro bit0 s howner
  exact exec_ior_answered (transportRead_length (s := readInSync Config.addrLength (s.setHostRead none)) howner)

/-- Settles O34: the handler answers with the accumulator and keeps it. -/
theorem readOfChecksum : Obligations.ReadOfChecksum := by
  intro bit0 s howner
  exact exec_ior_answered (transportRead_checksum (s := readInSync Config.addrChecksum (s.setHostRead none)) howner)

/-- Settles O35: the handler answers with Ack, which alone says who owns the buffer after it
(`ownerAfterAck_of_host`). -/
theorem readOfAck : Obligations.ReadOfAck := by
  intro bit0 s howner
  have hanswer := transportRead_ack (s := readInSync Config.addrAck (s.setHostRead none)) howner
  have hhandoff : decide (s.ack = 0xA0#8) = ownerAfterAck s.ack s.owner := by rw [howner, ownerAfterAck_of_host]
  rw [hhandoff]
  exact exec_ior_answered hanswer

/-- Settles O36: the handler answers with the byte at the operand's own offset (`payloadOffset_payloadAddr`). -/
theorem readOfPayload : Obligations.ReadOfPayload := by
  intro bit0 offset s howner
  have hanswer := transportRead_payload (s := readInSync (payloadAddr offset) (s.setHostRead none)) howner
    (payloadAddr_le offset)
  rw [readPayload, payloadOffset_payloadAddr] at hanswer
  rw [← Instr.ior_payloadAddr]
  exact exec_ior_answered hanswer

/-- An edge in Sync of a read that waits and fails again changes nothing (R49, R100). -/
theorem edgeStep_waiting {s : State} (hstate : s.cycleState = .sync) (hdir : s.direction = .read)
    (hprev : s.strobePrev = .inactive) (hlatch : s.ladOut = s.codes.syncShortWait)
    (hfails : s.owner = true ∨ 0x0103#16 ≤ s.address) (n : Nibble) : edgeStep n .inactive s = s := by
  rw [edgeStep_run n s hprev, runEdge, State.setStrobePrev_self hprev, stateStep, hstate]
  simp only [actSync, hdir, actSyncRead, transportRead_fails hfails, actDrive, ← hlatch]
  exact State.goto_self hstate

/-- Settles O37: the handler fails for these addresses, and the state left is one that waits (`edgeStep_waiting`). -/
theorem readOfAnyOtherAddress : Obligations.ReadOfAnyOtherAddress := by
  intro bit0 a s ha
  refine ⟨congrArg _ (readCycle_held bit0 (.inr ha)), fun n => ?_⟩
  exact congrArg _ (edgeStep_waiting (s := heldInSync a s) rfl rfl rfl rfl (.inr ha) n)

/-- Settles O38: the handler fails for every address. -/
theorem readsWaitWhileTheApplicationOwns : Obligations.ReadsWaitWhileTheApplicationOwns := by
  intro bit0 a s howner
  rw [exec_ior, readCycle_held bit0 (.inl howner)]

/-- Settles O52: by induction on the edges, each of which changes nothing (`edgeStep_waiting`). -/
theorem aWaitingReadChangesNothing : Obligations.AWaitingReadChangesNothing := by
  intro l s hstate hdir hprev hlatch hfails
  induction l with
  | nil => rfl
  | cons n rest ih =>
    rw [List.map_cons, runEdges_cons, edgeStep_waiting hstate hdir hprev hlatch hfails n]
    exact ih

/-! ### What the lines show -/

/-- The state at Addr0 of an I/O cycle whose frame began with a falling edge. -/
def atAddr0 (d : Direction) (s : State) : State :=
  { s with
    cycleState := .addr0, frameInfo := s.codes.frameStart, strobePrev := .inactive, cycType := .io, direction := d,
    ladDir := .host }

theorem runEdges_frame_io {s : State} (hprev : s.strobePrev = .inactive) (d : Direction) (bit0 : Bool) :
    runEdges (frameEdges s.codes.frameStart (ctdirNibble s.codes .io d bit0)) s = atAddr0 d s := by
  have hframe := runEdges_frameStream hprev (Config.freeLadIn 0) [] s.codes.frameStart
    (ctdirNibble s.codes .io d bit0) []
  rw [frameTarget_start rfl] at hframe
  exact hframe.trans (actCycTypeAndDir_io d bit0 _)

/-- The frame of an I/O cycle shows nothing. -/
theorem pinsTrace_frame_io {s : State} (hprev : s.strobePrev = .inactive) (d : Direction) (bit0 : Bool) :
    pinsTrace (frameEdges s.codes.frameStart (ctdirNibble s.codes .io d bit0)) s = List.replicate 3 .released := by
  calc pinsTrace (frameEdges s.codes.frameStart (ctdirNibble s.codes .io d bit0)) s
    _ = [(fallEdge s).ladPins, (holdEdge s.codes.frameStart (fallEdge s)).ladPins,
          (runEdges (frameEdges s.codes.frameStart (ctdirNibble s.codes .io d bit0)) s).ladPins] := by
      simp only [frameEdges, pinsTrace, runEdges, edgeStep_fall _ s hprev]
      rfl
    _ = List.replicate 3 .released := by
      rw [runEdges_frame_io hprev]
      rfl

/-- The last three edges of a write: the ready code, the release pattern, and the lines go back (R100, R103, R104). -/
theorem pinsTrace_writeSync {s : State} (hstate : s.cycleState = .sync) (hdir : s.direction = .write)
    (hprev : s.strobePrev = .inactive) (hlines : s.ladDir = .peripheral) (y0 y1 y2 : Nibble) :
    pinsTrace ([y0, y1, y2].map (Sample.mk .inactive)) s =
      [.driven s.codes.syncReady, .driven 0xF#4, .released] := by
  have hsync : edgeStep y0 .inactive s = actSyncWrite s := by
    rw [edgeStep_run y0 s hprev, runEdge, State.setStrobePrev_self hprev, stateStep, hstate]
    simp only [actSync, hdir]
  rw [List.map_cons, pinsTrace, hsync, actSyncWrite, transportWrite_frame]
  cases s
  cases hprev
  cases hlines
  rfl

/-- The fourteen edges of a write (R62). -/
theorem pinsTrace_writeEdges {s : State} (hprev : s.strobePrev = .inactive) (bit0 : Bool) (a : Addr) (v : Byte) :
    pinsTrace (writeEdges s.codes bit0 a v) s =
      List.replicate 10 .released ++
        [.driven s.codes.syncReady, .driven s.codes.syncReady, .driven 0xF#4, .released] := by
  have hsplit : writeEdges s.codes bit0 a v =
      frameEdges s.codes.frameStart (ctdirNibble s.codes .io .write bit0) ++
        ((addrNibbles a ++ [lowNibble v, highNibble v, Config.freeLadIn 9, Config.freeLadIn 10]).map
            (Sample.mk .inactive) ++
          [Config.freeLadIn 11, Config.freeLadIn 12, Config.freeLadIn 13].map (Sample.mk .inactive)) := rfl
  rw [hsplit, pinsTrace_append, pinsTrace_frame_io hprev, runEdges_frame_io hprev, pinsTrace_append,
    pinsTrace_writeSync rfl rfl rfl rfl]
  rfl

/-- The edges of a read up to Sync, where the wait code already shows (R98, R99). -/
theorem pinsTrace_readHead {s : State} (hprev : s.strobePrev = .inactive) (bit0 : Bool) (a : Addr) (y0 y1 : Nibble) :
    pinsTrace (readHead s.codes bit0 a y0 y1) s =
      List.replicate 8 .released ++ [.driven s.codes.syncShortWait] := by
  rw [readHead, pinsTrace_append, pinsTrace_frame_io hprev, runEdges_frame_io hprev]
  rfl

/-- A line IOR is the edges up to Sync and the five after it. -/
theorem readEdges_split (codes : WireCodes) (bit0 : Bool) (a : Addr) :
    readEdges codes bit0 a = readHead codes bit0 a (Config.freeLadIn 7) (Config.freeLadIn 8) ++
      [Config.freeLadIn 9, Config.freeLadIn 10, Config.freeLadIn 11, Config.freeLadIn 12,
        Config.freeLadIn 13].map (Sample.mk .inactive) := rfl

/-- The answer of the read handler depends on the transport's registers only. -/
theorem transportRead_answer_congr {s t : State} (h : SameTransport s t) (a : Addr) :
    (transportRead a t).1 = (transportRead a s).1 := by
  cases howner : s.owner with
  | true => rw [transportRead_owned howner, transportRead_owned (h.owner.trans howner)]
  | false =>
    rw [transportRead_of_host howner, transportRead_of_host (h.owner.trans howner)]
    split_ifs
    · exact congrArg some h.length
    · exact congrArg some h.checksumAcc
    · exact congrArg some h.ack
    · exact congrArg (fun m => some (Memory.get m (payloadOffset a))) h.buf
    · rfl

/-- While the transport owns the buffer, a read of a mapped address is answered (R120). -/
theorem transportRead_answers {a : Addr} {s : State} (howner : s.owner = false) (ha : a < 0x0103#16) :
    ∃ b t, transportRead a s = (some b, t) := by
  rcases transportRead_cases a s with ⟨howned, -⟩ | ⟨-, -, h⟩ | ⟨-, -, h⟩ | ⟨-, -, h⟩ | ⟨-, -, h⟩ | ⟨-, hunmapped, -⟩
  · rw [howner] at howned
    cases howned
  · exact ⟨_, _, h⟩
  · exact ⟨_, _, h⟩
  · exact ⟨_, _, h⟩
  · exact ⟨_, _, h⟩
  · obtain ⟨hlength, hchecksum, hack, hpayload⟩ := (unmapped_iff a).mp hunmapped
    bv_omega

/-- Settles O39: a cycle is its frame, the edges up to Sync, which show the code of the direction, and the edges from
Sync on, which show what the handler's answer leads to. -/
theorem whatTheBusShows : Obligations.WhatTheBusShows := by
  intro bit0 a v s hprev
  refine ⟨pinsTrace_writeEdges hprev bit0 a v, fun howner ha => ?answered, fun hfails => ?waits⟩
  case answered =>
    obtain ⟨b, t, hread⟩ := transportRead_answers (s := readInSync a s) howner ha
    obtain ⟨b', t', hline⟩ := transportRead_answers (s := readInSync a (s.setHostRead none)) howner ha
    have hsame : b' = b := by
      have hanswer := transportRead_answer_congr (s := readInSync a s) (t := readInSync a (s.setHostRead none))
        ⟨rfl, rfl, rfl, rfl, rfl⟩ a
      rw [hread, hline] at hanswer
      exact Option.some.inj hanswer
    refine ⟨b', _, exec_ior_answered hline, rfl, rfl, ?_⟩
    obtain ⟨-, htail⟩ := runEdges_readTail a s t b (Config.freeLadIn 9) (Config.freeLadIn 10) (Config.freeLadIn 11)
      (Config.freeLadIn 12) (Config.freeLadIn 13) hread
    rw [readEdges_split, pinsTrace_append, pinsTrace_readHead hprev, runEdges_readHead, htail, hsame]
    rfl
  case waits =>
    obtain ⟨-, htail⟩ := runEdges_waiting a s [Config.freeLadIn 9, Config.freeLadIn 10, Config.freeLadIn 11,
      Config.freeLadIn 12, Config.freeLadIn 13] (transportRead_fails hfails)
    rw [readEdges_split, pinsTrace_append, pinsTrace_readHead hprev, runEdges_readHead, htail]
    rfl

/-! ### Who drives the lines (R18, R19, R107) -/

/-- In a read Sync drives the ready code or the wait code, in a write the ready code; it does not turn the lines
(R100). -/
theorem actSync_lines (s : State) :
    (actSync s).ladDir = s.ladDir ∧
      ((actSync s).ladOut = s.codes.syncReady ∨
        s.direction = .read ∧ (actSync s).ladOut = s.codes.syncShortWait) := by
  unfold actSync
  cases hdir : s.direction with
  | read =>
    unfold actSyncRead
    cases hread : transportRead s.address s with
    | mk answer t =>
      have hlines : t.ladDir = s.ladDir := by rw [transportRead_answer_frame hread]
      cases answer with
      | none => exact ⟨hlines, .inr ⟨rfl, rfl⟩⟩
      | some b => exact ⟨hlines, .inl rfl⟩
  | write =>
    unfold actSyncWrite
    rw [transportWrite_frame]
    exact ⟨rfl, .inl rfl⟩

/-- The direction of the lines after an action, by the state it runs in (R99, R104). -/
theorem stateStep_ladDir (n : Nibble) (s : State) :
    (stateStep n s).ladDir = s.ladDir ∨
      (stateStep n s).ladDir = .peripheral ∧ s.cycleState = .turnToPeripheral1 ∨
      (stateStep n s).ladDir = .host ∧ s.cycleState = .turnToHost1 := by
  unfold stateStep
  cases s.cycleState with
  | turnToPeripheral1 => exact .inr (.inl ⟨rfl, rfl⟩)
  | turnToHost1 => exact .inr (.inr ⟨rfl, rfl⟩)
  | sync => exact .inl (actSync_lines s).1
  | _ => exact .inl rfl

/-- The latch after an action, by the state it runs in (R98, R100 to R103). -/
theorem stateStep_ladOut (n : Nibble) (s : State) :
    (stateStep n s).ladOut = s.ladOut ∨
      ((s.cycleState = .turnToPeripheral0 ∧ s.direction = .read ∧ (stateStep n s).ladOut = s.codes.syncShortWait) ∨
        (s.cycleState = .turnToPeripheral0 ∧ s.direction = .write ∧ (stateStep n s).ladOut = s.codes.syncReady) ∨
        (s.cycleState = .sync ∧ ((stateStep n s).ladOut = s.codes.syncReady ∨
          s.direction = .read ∧ (stateStep n s).ladOut = s.codes.syncShortWait)) ∨
        (s.cycleState = .dataRead0 ∧ (stateStep n s).ladOut = s.data.extractLsb' 0 4) ∨
        (s.cycleState = .dataRead1 ∧ (stateStep n s).ladOut = s.data.extractLsb' 4 4) ∨
        (s.cycleState = .turnToHost0 ∧ (stateStep n s).ladOut = 0b1111#4)) := by
  unfold stateStep
  cases s.cycleState with
  | turnToPeripheral0 =>
    cases s.direction with
    | read => exact .inr (.inl ⟨rfl, rfl, rfl⟩)
    | write => exact .inr (.inr (.inl ⟨rfl, rfl, rfl⟩))
  | sync => exact .inr (.inr (.inr (.inl ⟨rfl, (actSync_lines s).2⟩)))
  | dataRead0 => exact .inr (.inr (.inr (.inr (.inl ⟨rfl, rfl⟩))))
  | dataRead1 => exact .inr (.inr (.inr (.inr (.inr (.inl ⟨rfl, rfl⟩)))))
  | turnToHost0 => exact .inr (.inr (.inr (.inr (.inr (.inr ⟨rfl, rfl⟩)))))
  | _ => exact .inl rfl

/-- A RISE touches neither the direction nor the latch of the lines (R84). -/
theorem riseEdge_lines (n : Nibble) (s : State) :
    (riseEdge n s).ladDir = s.ladDir ∧ (riseEdge n s).ladOut = s.ladOut := by
  unfold riseEdge
  rcases frameTarget_cases s.codes s.frameInfo with h | h | h <;> rw [h] <;> exact ⟨rfl, rfl⟩

/-- Settles O47: FALL gives the lines back, HOLD and RISE do not touch them, and RUN is the action of the state
(`stateStep_ladDir`, `stateStep_ladOut`). -/
theorem theLinesAreDrivenByTheirRulesOnly : Obligations.TheLinesAreDrivenByTheirRulesOnly := by
  intro s t strobe n hedge
  rw [exec_ofEvent_strobePrev] at hedge
  cases hedge
  cases hprev : s.strobePrev <;> cases strobe
  case inactive.active =>
    rw [edgeStep_fall n s hprev]
    exact ⟨.inr (.inl ⟨rfl, rfl, rfl⟩), .inl rfl⟩
  case active.active =>
    rw [edgeStep_hold n s hprev]
    exact ⟨.inl rfl, .inl rfl⟩
  case active.inactive =>
    obtain ⟨hdir, hout⟩ := riseEdge_lines n s
    rw [edgeStep_rise n s hprev]
    exact ⟨.inl hdir, .inl hout⟩
  case inactive.inactive =>
    rw [edgeStep_run n s hprev, runEdge, State.setStrobePrev_self hprev]
    exact ⟨(stateStep_ladDir n s).imp_right fun h => .inr ⟨rfl, rfl, h⟩,
      (stateStep_ladOut n s).imp_right fun h => ⟨rfl, rfl, h⟩⟩

end Sys2Proof.Machine
end

section
/-! PROOFS. Ownership, passes and recovery (spec/10_state.md R27, R28, spec/42_transport_write.md R117,
spec/43_transport_read.md R127, spec/44_application_handoff.md R134, R135, spec/70_reset_and_hazards.md R163, R177):
what a run of edges and a run of cycles leave of the transport, the five steps of a line after its wait, and the
statements about them. -/

namespace Sys2Proof.Machine

open Sys2Proof.Safety Sys2Proof.Claims

/-! ### The application owns the buffer -/

theorem SameTransport.refl (s : State) : SameTransport s s := ⟨rfl, rfl, rfl, rfl, rfl⟩

theorem SameTransport.trans {s t u : State} (h : SameTransport s t) (h' : SameTransport t u) : SameTransport s u :=
  ⟨h'.owner.trans h.owner, h'.buf.trans h.buf, h'.length.trans h.length, h'.checksumAcc.trans h.checksumAcc,
    h'.ack.trans h.ack⟩

/-- While the application owns the buffer both handlers do nothing (R111, R121). -/
theorem edgeStep_owned (n : Nibble) (strobe : Strobe) {s : State} (howner : s.owner = true) :
    SameTransport s (edgeStep n strobe s) := by
  rcases edgeStep_transport n strobe s with h | ⟨-, -, -, ⟨-, h⟩ | ⟨-, h⟩⟩
  · exact h
  · rwa [transportRead_owned howner] at h
  · rwa [transportWrite_owned howner] at h

theorem runEdges_owned (l : List Sample) {s : State} (howner : s.owner = true) : SameTransport s (runEdges l s) := by
  induction l generalizing s with
  | nil => exact .refl s
  | cons e rest ih =>
    have hedge := edgeStep_owned e.ladIn e.strobe howner
    exact hedge.trans (ih (hedge.owner.trans howner))

/-- Settles O45: by induction on the edges (`runEdges_owned`). -/
theorem theHostCannotTouchWhatTheApplicationOwns : Obligations.TheHostCannotTouchWhatTheApplicationOwns := by
  intro l s howner
  obtain ⟨hsame, hbuf, hlength, hacc, hack⟩ := runEdges_owned l howner
  exact ⟨hsame.trans howner, hbuf, hlength, hacc, hack⟩

/-- Settles O44: a Peek answers with the buffer and the length, which the edges leave (`runEdges_owned`). -/
theorem peeksAreRepeatable : Obligations.PeeksAreRepeatable := by
  intro s l howner
  have hfirst : peekReply s = .available s.buf s.length := peekReply_owned howner
  have hrun := runEdges_owned l (s := s.setReply (peekReply s)) howner
  refine ⟨_, _, exec_peek s, exec_peek _, ?_, hfirst⟩
  calc peekReply (runEdges l (s.setReply (peekReply s)))
    _ = .available s.buf s.length := by
      rw [peekReply_owned (hrun.owner.trans howner), hrun.buf, hrun.length]
      rfl
    _ = peekReply s := hfirst.symm

/-! ### The two handoffs (R27) -/

/-- A read changes the ownership only when it is of Ack holding the pass byte (R124). -/
theorem transportRead_owner_changed {a : Addr} {s : State} (h : (transportRead a s).2.owner ≠ s.owner) :
    (transportRead a s).2.owner = true ∧ a = Config.addrAck ∧ s.ack = Config.ackPass ∧
      (transportRead a s).2.checksumAcc = 0x00#8 := by
  rcases transportRead_cases a s with ⟨-, hread⟩ | ⟨-, -, hread⟩ | ⟨-, -, hread⟩ | ⟨howner, ha, hread⟩ |
    ⟨-, -, hread⟩ | ⟨-, -, hread⟩
  case inr.inr.inr.inl =>
    rw [hread] at h ⊢
    simp only [readAck, State.setOwner_owner, howner, ownerAfterAck_of_host] at h ⊢
    have hpass : decide (s.ack = Config.ackPass) = true := Bool.ne_false_iff.mp h
    exact ⟨hpass, ha, of_decide_eq_true hpass, rfl⟩
  all_goals
    rw [hread] at h
    exact absurd rfl h

/-- Settles O46: an edge moves the ownership by one call of a handler (`edgeStep_transport`), and only a read can; a
Submit moves it when it is accepted (`submitCall_cases`). -/
theorem ownershipMovesOnlyAtTheTwoHandoffs : Obligations.OwnershipMovesOnlyAtTheTwoHandoffs := by
  refine ⟨fun s t strobe n hedge hmoved => ?edge, fun m s t hcall => ?submit⟩
  case edge =>
    rw [exec_ofEvent_strobePrev] at hedge
    cases hedge
    rcases edgeStep_transport n strobe s with h | ⟨hprev, hstrobe, hstate, ⟨hdir, h⟩ | ⟨-, h⟩⟩
    · exact absurd h.owner hmoved
    · rw [h.owner] at hmoved
      obtain ⟨howner, ha, hack, hacc⟩ := transportRead_owner_changed hmoved
      exact ⟨h.owner.trans howner, hprev, hstrobe, hstate, hdir, ha, hack, h.checksumAcc.trans hacc⟩
    · rw [h.owner, transportWrite_frame] at hmoved
      exact absurd rfl hmoved
  case submit =>
    rw [exec_submit] at hcall
    cases hcall
    rcases submitCall_cases m s with h | ⟨howner, -, h⟩
    · rw [h]
      exact iff_of_false (fun hmoved => hmoved rfl) nofun
    · rw [h]
      exact iff_of_true (fun hsame => Bool.false_ne_true (hsame.trans howner)) ⟨howner, rfl, rfl⟩

/-- Settles O43: past the two tests of R132 a Submit fails or is accepted (`submitCall_cases`), and 256 modulo 256 is
0. -/
theorem submitOfTheWholeBuffer : Obligations.SubmitOfTheWholeBuffer := by
  intro m s howner hbuf hlen
  rcases submitCall_cases m s with h | ⟨-, hfits, h⟩
  · exact .inl (congrArg _ h)
  · have hzero : BitVec.ofNat 8 m.length = 0x00#8 := by rw [hlen]; rfl
    refine .inr ⟨acceptSubmit m s, congrArg _ h, ?_, acceptSubmit_buf_get hbuf hfits⟩
    rw [← hzero]
    rfl

/-! ### Passes (R117, R127) -/

/-- The accumulator is the sum of the bytes added, modulo 256. -/
theorem checksumSum_toNat (acc : Byte) (l : List Byte) :
    (checksumSum acc l).toNat = (acc.toNat + (l.map BitVec.toNat).sum) % 256 := by
  induction l generalizing acc with
  | nil => exact (Nat.mod_eq_of_lt acc.isLt).symm
  | cons b rest ih =>
    calc (checksumSum acc (b :: rest)).toNat
      _ = (checksumSum (acc + b) rest).toNat := rfl
      _ = ((acc.toNat + b.toNat) % 256 + (rest.map BitVec.toNat).sum) % 256 := by rw [ih, BitVec.toNat_add]
      _ = (acc.toNat + ((b :: rest).map BitVec.toNat).sum) % 256 := by
        rw [Nat.mod_add_mod, List.map_cons, List.sum_cons, Nat.add_assoc]

theorem checksumSum_zero_toNat (l : List Byte) : (checksumSum 0x00#8 l).toNat = sumMod256 l := by
  rw [checksumSum_toNat, sumMod256]
  simp

theorem runAll_append {l l' : List Instr} {s t : State} (h : runAll l s = .next t) :
    runAll (l ++ l') s = runAll l' t := by
  induction l generalizing s with
  | nil =>
    cases h
    rfl
  | cons i rest ih =>
    cases hi : exec i s with
    | next u =>
      rw [runAll_cons hi] at h
      rw [List.cons_append, runAll_cons hi, ih h]
    | fault f => cases f
    | refused r =>
      rw [runAll, hi] at h
      cases h

/-- Payload writes at any offsets add their bytes to the accumulator and leave `length` and the ownership. -/
theorem runAll_iowPayload (bit0 : Bool) (l : List (Byte × Byte)) {s : State} (howner : s.owner = false) :
    ∃ t, runAll (l.map fun p => .iowPayload bit0 p.1 p.2) s = .next t ∧
      t.checksumAcc = checksumSum s.checksumAcc (l.map Prod.snd) ∧ t.length = s.length ∧ t.owner = false := by
  induction l generalizing s with
  | nil => exact ⟨s, rfl, rfl, rfl, howner⟩
  | cons p rest ih =>
    have hwrite := exec_iowPayload_of_host howner bit0 p.1 p.2
    obtain ⟨t, hrun, hacc, hlength, hhost⟩ := ih (s := { afterWrite (payloadAddr p.1) p.2 s with
      buf := s.buf.put p.1.toNat p.2, checksumAcc := s.checksumAcc + p.2 }) howner
    exact ⟨t, (runAll_cons hwrite _).trans hrun, hacc, hlength, hhost⟩

/-- Payload reads of any offsets add the bytes there to the accumulator and leave the rest of the transport. -/
theorem runAll_iorPayload (bit0 : Bool) (l : List Byte) {s : State} (howner : s.owner = false) :
    ∃ t, runAll (l.map (.iorPayload bit0)) s = .next t ∧
      t.checksumAcc = checksumSum s.checksumAcc (l.map fun o => s.buf.get o.toNat) ∧ t.buf = s.buf ∧
      t.ack = s.ack ∧ t.owner = false := by
  induction l generalizing s with
  | nil => exact ⟨s, rfl, rfl, rfl, rfl, howner⟩
  | cons o rest ih =>
    have hread := readOfPayload bit0 o s howner
    obtain ⟨t, hrun, hacc, hbuf, hack, hhost⟩ := ih (s := { afterRead (payloadAddr o) (s.buf.get o.toNat) s with
      checksumAcc := s.checksumAcc + s.buf.get o.toNat }) howner
    exact ⟨t, (runAll_cons hread _).trans hrun, hacc, hbuf, hack, hhost⟩

/-- The state after a read of Length by the host (R122). -/
def lengthRead (s : State) : State := { afterRead 0x0100#16 s.length s with checksumAcc := 0x00#8 }

theorem exec_iorLength_of_host {s : State} (howner : s.owner = false) (bit0 : Bool) :
    exec (.iorLength bit0) s = .next (lengthRead s) := readOfLength bit0 s howner

/-- After a read of Length, which clears the accumulator, it is the sum of the payload bytes read. -/
theorem runAll_readPass (bit0 : Bool) (l : List Byte) {s : State} (howner : s.owner = false) :
    ∃ t, runAll (l.map (.iorPayload bit0)) (lengthRead s) = .next t ∧
      t.checksumAcc.toNat = sumMod256 (l.map fun o => s.buf.get o.toNat) ∧ t.buf = s.buf ∧ t.ack = s.ack ∧
      t.owner = false := by
  obtain ⟨t, hrun, hacc, hbuf, hack, hhost⟩ := runAll_iorPayload bit0 l (s := lengthRead s) howner
  exact ⟨t, hrun, hacc ▸ checksumSum_zero_toNat _, hbuf, hack, hhost⟩

/-- Settles O48: the write leaves its byte at its offset and the others as they were, and the read yields the byte at
its own. -/
theorem payloadReadsBackWhatWasWritten : Obligations.PayloadReadsBackWhatWasWritten := by
  intro bit0 o v o' s howner hbuf
  refine ⟨_, _, exec_iowPayload_of_host howner bit0 o v, readOfPayload bit0 o' _ howner, congrArg some ?_⟩
  calc (s.buf.put o.toNat v).get o'.toNat
    _ = if o'.toNat = o.toNat then v else s.buf.get o'.toNat := Memory.get_put hbuf o.toNat v o'.toNat
    _ = if o' = o then v else s.buf.get o'.toNat := by simp only [BitVec.toNat_inj]

/-- Settles O49: the write of Length clears the accumulator, the payload writes add to it (`runAll_iowPayload`), and the
write of Checksum compares with it. -/
theorem writePassChecksum : Obligations.WritePassChecksum := by
  intro bit0 n c l s howner
  obtain ⟨t, hrun, hacc, hlength, hhost⟩ := runAll_iowPayload bit0 l
    (s := { afterWrite 0x0100#16 n s with ack := 0xAF#8, length := n, checksumAcc := 0x00#8 }) howner
  have hsum : t.checksumAcc.toNat = sumMod256 (l.map Prod.snd) := by rw [hacc, ← checksumSum_zero_toNat]
  have hverdict : t.checksumAcc = c ↔ c.toNat = sumMod256 (l.map Prod.snd) := by
    rw [← hsum, BitVec.toNat_inj, eq_comm]
  have hlast := runAll_cons (writeOfChecksum bit0 c t hhost) []
  have hwrites := (runAll_cons (writeOfLength bit0 n s howner) _).trans hrun
  exact ⟨_, (runAll_append hwrites).trans hlast, hsum, if_congr hverdict rfl rfl, hlength, hhost⟩

/-- Settles O50: the read of Length clears the accumulator, the payload reads add to it (`runAll_readPass`), and the
read of Checksum yields it. -/
theorem readPassChecksum : Obligations.ReadPassChecksum := by
  intro bit0 l s howner
  obtain ⟨t, hrun, hsum, hbuf, -, hhost⟩ := runAll_readPass bit0 l howner
  have hlast := runAll_cons (readOfChecksum bit0 t hhost) []
  have hreads := (runAll_cons (exec_iorLength_of_host howner bit0) _).trans hrun
  exact ⟨_, t.checksumAcc, (runAll_append hreads).trans hlast, rfl, hsum, hbuf, hhost⟩

/-! ### A submitted message -/

theorem exec_submit_accepted {s : State} (howner : s.owner = true) {m : List Byte} (hlen : m.length ≤ 255) :
    exec (.submit m) s = .next (acceptSubmit m s) := by
  rw [exec_submit, submitCall_accepted howner hlen]

/-! A Submit touches neither the decoder nor the open line, nor Ack. -/

section
variable (m : List Byte) (s : State)

@[simp] theorem acceptSubmit_cycleState : (acceptSubmit m s).cycleState = s.cycleState := by simp [acceptSubmit]
@[simp] theorem acceptSubmit_strobePrev : (acceptSubmit m s).strobePrev = s.strobePrev := by simp [acceptSubmit]
@[simp] theorem acceptSubmit_direction : (acceptSubmit m s).direction = s.direction := by simp [acceptSubmit]
@[simp] theorem acceptSubmit_address : (acceptSubmit m s).address = s.address := by simp [acceptSubmit]
@[simp] theorem acceptSubmit_ladDir : (acceptSubmit m s).ladDir = s.ladDir := by simp [acceptSubmit]
@[simp] theorem acceptSubmit_ack : (acceptSubmit m s).ack = s.ack := by simp [acceptSubmit]
@[simp] theorem acceptSubmit_owner : (acceptSubmit m s).owner = false := by simp [acceptSubmit]
@[simp] theorem acceptSubmit_pending : (acceptSubmit m s).pending = s.pending := by simp [acceptSubmit]
@[simp] theorem acceptSubmit_drawn : (acceptSubmit m s).drawn = s.drawn := by simp [acceptSubmit]
@[simp] theorem acceptSubmit_readOpen : (acceptSubmit m s).readOpen = s.readOpen := by simp [acceptSubmit]

end

/-- Past an accepted Submit the first bytes of the buffer are the message. -/
theorem acceptSubmit_message {s : State} (hbuf : s.buf.wf = true) {m : List Byte} (hlen : m.length ≤ 255) :
    (List.range m.length).map (acceptSubmit m s).buf.get = m := by
  apply List.ext_getElem
  · simp
  · intro x hx hm
    rw [List.getElem_map, List.getElem_range, acceptSubmit_buf_get hbuf (Nat.le_succ_of_le hlen),
      List.getElem?_eq_getElem hm]
    rfl

/-- Settles O51: the message stands at the offsets below its length (`acceptSubmit_message`), so reads of these offsets
in any order yield its bytes and add up to its sum; Ack is the pass byte by the handoff invariant. -/
theorem submittedMessagesRoundTrip : Obligations.SubmittedMessagesRoundTrip := by
  intro bit0 m offsets s howner hhandoff hbuf hlen hperm
  have hfits : m.length ≤ Config.bufSize := Nat.le_succ_of_le hlen
  have hpass (l : List Byte) := runAll_readPass bit0 l (s := acceptSubmit m s) rfl
  obtain ⟨t2, hrun, hacc, -, hack, hhost⟩ := hpass offsets
  have hsum : t2.checksumAcc.toNat = sumMod256 m := by
    have hbytes : (offsets.map fun o => (acceptSubmit m s).buf.get o.toNat).Perm m := by
      have hget := hperm.map (acceptSubmit m s).buf.get
      rwa [List.map_map, acceptSubmit_message hbuf hlen] at hget
    rw [hacc, sumMod256, (hbytes.map BitVec.toNat).sum_eq, sumMod256]
  have hpassByte : t2.ack = 0xA0#8 := hack.trans (hhandoff howner).1
  refine ⟨_, _, t2, _, _, t2.checksumAcc, exec_submit_accepted howner hlen, exec_iorLength_of_host rfl bit0, rfl, hrun,
    fun before o after hoffsets => ?reads, readOfChecksum bit0 t2 hhost, rfl, hsum, readOfAck bit0 _ hhost,
    congrArg some hpassByte, decide_eq_true hpassByte⟩
  case reads =>
    obtain ⟨t, hbefore, -, hkept, -, hstill⟩ := hpass before
    have hlast := runAll_cons (readOfPayload bit0 o t hstill) []
    have hmem : o.toNat ∈ offsets.map BitVec.toNat := List.mem_map_of_mem (by simp [hoffsets])
    have ho : o.toNat < m.length := List.mem_range.mp (hperm.mem_iff.mp hmem)
    refine ⟨_, by rw [List.map_append]; exact (runAll_append hbefore).trans hlast, ?_⟩
    calc some (t.buf.get o.toNat)
      _ = some ((m[o.toNat]?).getD (s.buf.get o.toNat)) := by rw [hkept, acceptSubmit_buf_get hbuf hfits]
      _ = m[o.toNat]? := by rw [List.getElem?_eq_getElem ho, Option.getD_some]

/-- Settles O54: a Submit keeps Ack, which the handoff invariant says is the pass byte. -/
theorem ackStaysPassAcrossASubmit : Obligations.AckStaysPassAcrossASubmit := by
  intro bit0 m s howner hhandoff hlen
  obtain ⟨hpassByte, -⟩ := hhandoff howner
  exact ⟨_, _, exec_submit_accepted howner hlen, readOfAck bit0 (acceptSubmit m s) (acceptSubmit_owner m s),
    congrArg some ((acceptSubmit_ack m s).trans hpassByte), decide_eq_true ((acceptSubmit_ack m s).trans hpassByte),
    rfl, rfl⟩

/-- Settles O56: a launch leaves the buffer with the transport, so reads are answered and both calls are not. -/
theorem whatIsSeenAfterInitialisation : Obligations.WhatIsSeenAfterInitialisation := by
  intro l bit0 o m
  obtain ⟨-, hpeek⟩ := peekReturnsTheMessage (State.initial l)
  exact ⟨⟨_, readOfLength bit0 _ rfl, rfl⟩, ⟨_, readOfChecksum bit0 _ rfl, rfl⟩, ⟨_, readOfAck bit0 _ rfl, rfl, rfl⟩,
    ⟨_, readOfPayload bit0 o _ rfl, rfl⟩, hpeek rfl, submitFails m _ (.inl rfl)⟩

/-! ### A waiting line goes on (R53, R72) -/

theorem exec_run_sync {s : State} (hstate : s.cycleState = .sync) (hprev : s.strobePrev = .inactive) (n : Nibble) :
    exec (.run n) s = exec (.stSync n) s := by
  rw [exec_run, State.setStrobePrev_self hprev, ← exec_ofState hstate]
  rfl

/-- A step of an open line that goes on is the action of its state. -/
theorem step_line_acts {s : State} (hline : readGoesOn s = true) :
    step s = .next (stateStep (Config.freeLadIn 14) s) := by
  obtain ⟨-, hprev⟩ := readGoesOn_strobe s hline
  rw [step_line hline, exec_run, State.setStrobePrev_self hprev]

theorem stepMany_succ {s t : State} (h : step s = .next t) (k : Nat) : stepMany (k + 1) s = stepMany k t := by
  rw [stepMany, h]

/-- A line in Sync whose read is answered comes to Idle in five steps, with one call of the read handler. -/
theorem stepMany_line {u v : State} {b : Byte} (hopen : u.readOpen = true) (hstate : u.cycleState = .sync)
    (hdir : u.direction = .read) (hprev : u.strobePrev = .inactive) (hlines : u.ladDir = .peripheral)
    (hread : transportRead u.address u = (some b, v)) :
    stepMany 5 u = .next { v with
      cycleState := .idle, data := b, ladOut := 0xF#4, ladDir := .host, hostRead := some b } := by
  have hframe := transportRead_answer_frame hread
  have hopen' : v.readOpen = true := hframe ▸ hopen
  have hprev' : v.strobePrev = .inactive := hframe ▸ hprev
  have hlines' : v.ladDir = .peripheral := hframe ▸ hlines
  have hsync : stateStep (Config.freeLadIn 14) u =
      { v with cycleState := .dataRead0, data := b, ladOut := u.codes.syncReady } := by
    rw [stateStep, hstate]
    simp only [actSync, hdir, actSyncRead, hread]
    rfl
  have hhigh := actDataRead1_driven { v with cycleState := .dataRead1, data := b, ladOut := lowNibble b } hlines'
  rw [joinNibbles_split] at hhigh
  calc stepMany 5 u
    _ = stepMany 4 { v with cycleState := .dataRead0, data := b, ladOut := u.codes.syncReady } :=
      stepMany_succ (hsync ▸ step_line_acts (by simp [readGoesOn, hopen, hprev, hstate, hread])) 4
    _ = stepMany 3 { v with cycleState := .dataRead1, data := b, ladOut := lowNibble b } :=
      stepMany_succ (step_line_acts (by simp [readGoesOn, hopen', hprev'])) 3
    _ = stepMany 2 { v with
          cycleState := .turnToHost0, data := b, ladOut := highNibble b, hostRead := some b } :=
      stepMany_succ (hhigh ▸ step_line_acts (by simp [readGoesOn, hopen', hprev'])) 2
    _ = stepMany 1 { v with cycleState := .turnToHost1, data := b, ladOut := 0xF#4, hostRead := some b } :=
      stepMany_succ (step_line_acts (by simp [readGoesOn, hopen', hprev'])) 1
    _ = .next { v with
          cycleState := .idle, data := b, ladOut := 0xF#4, ladDir := .host, hostRead := some b } :=
      stepMany_succ (step_line_acts (by simp [readGoesOn, hopen', hprev'])) 0

/-- Settles O53: the Submit gives the buffer back, so the waiting read is answered at the next edge
(`syncReadsByAddress`), and its line comes to Idle (`stepMany_line`). -/
theorem submitReleasesAWaitingRead : Obligations.SubmitReleasesAWaitingRead := by
  refine ⟨fun m n s hstate hdir hprev howner ha hlen => ?edge,
    fun m rest s hopen hstate hdir hprev hlines howner ha hlen hpending => ?line⟩
  case edge =>
    obtain ⟨-, -, hlength, -⟩ := syncReadsByAddress n (acceptSubmit m s) ((acceptSubmit_direction m s).trans hdir)
    have hrun := exec_run_sync ((acceptSubmit_cycleState m s).trans hstate)
      ((acceptSubmit_strobePrev m s).trans hprev) n
    exact ⟨_, exec_submit_accepted howner hlen,
      hrun.trans (hlength (acceptSubmit_owner m s) ((acceptSubmit_address m s).trans ha))⟩
  case line =>
    have hwaits : readGoesOn s = false := by simp [readGoesOn, hstate, transportRead_owned howner]
    have hsubmit := exec_submit_accepted (s := { s with pending := rest }) howner hlen
    have hfirst := (step_cons hpending hwaits rfl).trans hsubmit
    generalize hu : acceptSubmit m { s with pending := rest } = u at hsubmit hfirst
    have haddress : u.address = s.address := by rw [← hu, acceptSubmit_address]
    have howner' : u.owner = false := by rw [← hu, acceptSubmit_owner]
    obtain ⟨b, v, hread⟩ := transportRead_answers howner' ha
    have hkept : v.pending = rest ∧ v.drawn = s.drawn := by
      rw [transportRead_answer_frame hread, ← hu]
      simp
    refine ⟨u, v, b, hsubmit, hread, fun hlength => ?_, ?_, hkept⟩
    · rw [hlength, transportRead_length howner'] at hread
      cases hread
      rw [← hu]
      rfl
    · rw [stepMany_succ hfirst]
      rw [← haddress] at hread
      subst hu
      exact stepMany_line ((acceptSubmit_readOpen ..).trans hopen) ((acceptSubmit_cycleState ..).trans hstate)
        ((acceptSubmit_direction ..).trans hdir) ((acceptSubmit_strobePrev ..).trans hprev)
        ((acceptSubmit_ladDir ..).trans hlines) hread

end Sys2Proof.Machine
end
